-- ==== Sys2Proof/Word.lean ====
section
/-! DEFINITION. The two bit vectors of the block: the stored byte and the command word. -/

namespace Sys2Proof

/-- `u8`, an 8-bit unsigned byte (00_scope.md R9). -/
abbrev Byte := BitVec 8

/-- A command word: 10 bits, `op` in `[9:8]` and `data` in `[7:0]` (30_encoding.md R61). -/
abbrev Word := BitVec 10

end Sys2Proof
end

