-- ==== Sys2Proof/Syntax.lean ====
section
/-! DEFINITION. The four commands, the ports, and what a command word can decode to. -/

namespace Sys2Proof

/-- The commands, one constructor per row of the opcode table (30_encoding.md R62). -/
inductive Instr where
  /-- INIT (40_init.md R80). -/
  | init
  /-- PUT b (41_transfer.md R86). -/
  | put (b : Byte)
  /-- GET (41_transfer.md R87). -/
  | get
  /-- LEN (42_query.md R100). -/
  | len
deriving DecidableEq, Repr

/-- The three command ports (30_encoding.md R60). -/
inductive Port where
  /-- Driven by the producer, interrupt context. -/
  | prod
  /-- Driven by the consumer, task context. -/
  | cons
  /-- Driven by the setup code. -/
  | ctrl
deriving DecidableEq, Repr

/-- What a 10-bit word decodes to: a command or `Reserved(w)` (30_encoding.md R65, R69). -/
inductive Decoded where
  /-- One of the four commands of R62. -/
  | command (i : Instr)
  /-- A reserved word (R66). -/
  | reserved (w : Word)
deriving DecidableEq, Repr

end Sys2Proof
end

