-- ==== Sys2Proof/Decode.lean ====
section
/-! DEFINITION. The opcode map of 30_encoding.md R61 and R62: the decoder, total on 10-bit words,
and the encoder. -/

namespace Sys2Proof

/-- The `op` field, bits `[9:8]` of a command word (30_encoding.md R61). -/
def opField (w : Word) : BitVec 2 := w.extractLsb' 8 2

/-- The `data` field, bits `[7:0]` of a command word (30_encoding.md R61, R63). -/
def dataField (w : Word) : Byte := w.extractLsb' 0 8

/-- The decoder (30_encoding.md R69): `op` selects the command; outside PUT a `data` field other
than `0x00` makes the word reserved (R66). -/
def decode (w : Word) : Decoded :=
  match (opField w).toNat with
  | 0 => if dataField w = 0x00#8 then .command .init else .reserved w
  | 1 => .command (.put (dataField w))
  | 2 => if dataField w = 0x00#8 then .command .get else .reserved w
  | _ => if dataField w = 0x00#8 then .command .len else .reserved w

/-- The encoder: the command word of a command (30_encoding.md R62). -/
def encode : Instr → Word
  | .init => 0b00#2 ++ 0x00#8
  | .put b => 0b01#2 ++ b
  | .get => 0b10#2 ++ 0x00#8
  | .len => 0b11#2 ++ 0x00#8

/-- The bits of a row that are fixed: the `mask` column of 30_encoding.md R62. -/
def rowMask : Instr → Word
  | .init => 0x3FF#10
  | .put _ => 0x300#10
  | .get => 0x3FF#10
  | .len => 0x3FF#10

/-- What the fixed bits of a row are: the `match` column of 30_encoding.md R62. -/
def rowMatch : Instr → Word
  | .init => 0x000#10
  | .put _ => 0x100#10
  | .get => 0x200#10
  | .len => 0x300#10

/-- The command word held in the low bits of a number of `nbits` bits, if the bits above the word
are 0; a number with a bit set above bit 9 is no command word (log entry 22). -/
def wordOfTable (nbits w : Nat) : Option Word :=
  if w % 2 ^ nbits < 2 ^ 10 then some (BitVec.ofNat 10 (w % 2 ^ nbits)) else none

/-- The command the decoder reads from the bits `w`, numbered as the opcode table numbers them. -/
def decodeTableWord (nbits w : Nat) : Option Instr :=
  match wordOfTable nbits w with
  | none => none
  | some v =>
    match decode v with
    | .command i => some i
    | .reserved _ => none

end Sys2Proof
end

