-- ==== Sys2Proof/Config.lean ====
section
/-! DEFINITION. What an implementation fixes (00_scope.md R6, R8; 60_exceptions.md R130), and the
free values: constants without a body, of which nothing can be proved. -/

namespace Sys2Proof

/-- The parameters of one block and its environment. They are data of the state that no step
changes, so that a statement about every state is about every configuration (log entry 1). -/
structure Config where
  /-- `C`, the capacity in bytes (00_scope.md R6). -/
  cap : Nat
  /-- `C_MAX`, the largest capacity the implementation builds; `none` is unbounded (R8). -/
  capMax : Option Nat
  /-- `SIGNAL_MAX`, the largest count of the Signal; `none` is unbounded (R8, 60_exceptions.md R124). -/
  sigMax : Option Nat
  /-- How many agents issue on `PROD` (60_exceptions.md R130). -/
  producers : Nat
  /-- How many agents issue on `CONS` (60_exceptions.md R130). -/
  consumers : Nat
deriving DecidableEq, Repr

/-- The configuration `State.reset` is built with. DESIGN CHOICE, unsafe (log entry 1): the spec
leaves every value open; 16 is the capacity of the source's own example (95_test_vectors.md §1.1). -/
def Config.atReset : Config :=
  { cap := 16, capMax := none, sigMax := none, producers := 1, consumers := 1 }

/-- Free value: the `w` value bits of the response of a GET that met an empty buffer
(30_encoding.md R64, 93 I2; log entry 7). The last argument numbers the draw. -/
opaque Config.emptyGetValue : (w : Nat) → Nat → BitVec w

/-- Free value: the EMPTY output before the first INIT (42_query.md R101, 93 I14; log entry 8). -/
opaque Config.emptyBeforeInit : Nat → Bool

/-- Free value: the FULL output before the first INIT (42_query.md R102, 93 I14; log entry 8). -/
opaque Config.fullBeforeInit : Nat → Bool

end Sys2Proof
end

