-- ==== Sys2Proof/Machine/State.lean ====
section
/-! DEFINITION. The state of the block and of the environment that drives it, as plain data; the
reasons a step can stop; the state after power-on. -/

namespace Sys2Proof.Machine

open Sys2Proof

/-- The storage: the written cells, cell number rising. A cell that is not listed is `unwritten`
(10_state.md R20, R37; log entry 12). -/
abbrev Memory := List Host.Cell

/-- The response of one command (30_encoding.md R64). -/
inductive Response where
  /-- INIT: `(1, 0)`. -/
  | unit
  /-- PUT: whether the byte was stored. -/
  | stored (ok : Bool)
  /-- GET that read a byte: `some b`. -/
  | byte (b : Byte)
  /-- GET on an empty buffer: `none`. `draw` numbers the free value on the value bits. -/
  | noData (draw : Nat)
  /-- LEN: the occupied count. -/
  | count (n : Nat)
deriving DecidableEq, Repr

/-- The response each port returns in the step just taken, if it returned one (30_encoding.md R60). -/
structure Responses where
  prod : Option Response
  cons : Option Response
  ctrl : Option Response
deriving DecidableEq, Repr

/-- The timeout of `take` and `read_byte_blocking` (60_exceptions.md R125). -/
inductive Timeout where
  | finite
  | forever
deriving DecidableEq, Repr

/-- The result of a `take` (60_exceptions.md R125). -/
inductive TakeResult where
  | ok
  | timedOut
deriving DecidableEq, Repr

/-- The result of a call of `read_byte_blocking` (60_exceptions.md R126). -/
inductive CallResult where
  | byte (b : Byte)
  | timedOut
deriving DecidableEq, Repr

/-- Where the producer routine `on_receive_ready` stands (60_exceptions.md R121): each constructor
but `idle` names the step the routine takes next. -/
inductive Producer where
  /-- The routine is not running. -/
  | idle
  /-- Next is the loop test `available()`. -/
  | testing
  /-- Next is `read()`. -/
  | reading
  /-- Next is `PROD: PUT b`. -/
  | putting (b : Byte)
  /-- Next is `release()`. -/
  | releasing
deriving DecidableEq, Repr

/-- The consumer's state machine (60_exceptions.md R127), with a `take` issued outside
`read_byte_blocking` beside it (R118; log entry 16). -/
inductive Consumer where
  /-- Not in a call. -/
  | idle
  /-- `WAIT_FOR_DATA`: next is `CONS: GET`. -/
  | waitForData (t : Timeout)
  /-- `BLOCKED_ON_SIGNAL`: `waiting` says whether `take` has begun and found no permit. -/
  | blockedOnSignal (t : Timeout) (waiting : Bool)
  /-- `RETURN`: the call ended with this result. -/
  | returned (r : CallResult)
  /-- Blocked in a `take` that was issued outside `read_byte_blocking`. -/
  | bareTake (t : Timeout)
deriving DecidableEq, Repr

/-- What the producer's side does in one step (60_exceptions.md R117, R118). -/
inductive ProdMove where
  /-- A command word on `PROD`. -/
  | word (w : Word)
  /-- The interrupt controller starts the producer routine (R120). -/
  | interrupt
  /-- The producer routine takes its next step (R121). -/
  | run
  /-- `release()` outside the routine. -/
  | release
  /-- `take(t)`, which interrupt context must not issue (R118). -/
  | take (t : Timeout)
deriving DecidableEq, Repr

/-- What the consumer's side does in one step (60_exceptions.md R117, R118). -/
inductive ConsMove where
  /-- A command word on `CONS`. -/
  | word (w : Word)
  /-- The task calls `read_byte_blocking(t)` (R126). -/
  | call (t : Timeout)
  /-- The consumer takes its next step; `expire` is the free choice that a finite timeout of a
  blocked `take` runs out now (R125). -/
  | run (expire : Bool)
  /-- `release()` from task context (R118). -/
  | release
  /-- `take(t)` outside `read_byte_blocking` (R118). -/
  | take (t : Timeout)
deriving DecidableEq, Repr

/-- The order in which the ports take effect in one step, a free choice (20_memory.md R49,
30_encoding.md R68; log entry 5). The letters are P for `PROD`, C for `CONS`, S for `CTRL`. -/
inductive Order where
  | pcs
  | psc
  | cps
  | csp
  | spc
  | scp
deriving DecidableEq, Repr

/-- Everything the outside presents in one step: each port presents at most one thing
(30_encoding.md R60), and any number of bytes may arrive (60_exceptions.md R119). -/
structure Tick where
  /-- Bytes the byte source appends to `src_q`. -/
  arrivals : List Byte
  prod : Option ProdMove
  cons : Option ConsMove
  /-- The command word on `CTRL`. -/
  ctrl : Option Word
  order : Order
deriving DecidableEq, Repr

/-- The tick in which nothing is presented. -/
def Tick.quiet : Tick := { arrivals := [], prod := none, cons := none, ctrl := none, order := .pcs }

/-- The whole machine. -/
structure State where
  /-- The parameters; no step changes them (00_scope.md R6, R8). -/
  cfg : Config
  /-- `stor` (10_state.md R21). -/
  stor : Memory
  /-- `r_idx` (10_state.md R22). -/
  rIdx : Nat
  /-- `r_mir` (10_state.md R23). -/
  rMir : Bool
  /-- `w_idx` (10_state.md R24). -/
  wIdx : Nat
  /-- `w_mir` (10_state.md R25). -/
  wMir : Bool
  /-- `init` (10_state.md R28). -/
  init : Bool
  /-- `sig`, the permit count of the Signal (60_exceptions.md R123). -/
  sig : Nat
  /-- `src_q`, the bytes received and not yet handed over, oldest first (60_exceptions.md R119). -/
  srcQ : List Byte
  /-- The producer routine (60_exceptions.md R121). -/
  producer : Producer
  /-- The consumer routine (60_exceptions.md R127). -/
  consumer : Consumer
  /-- The result of the `take` that completed in the step just taken (60_exceptions.md R125). -/
  takeRes : Option TakeResult
  /-- Whether the step just taken was the consumer's to make and the consumer had no enabled step:
  the outcome `Stuck` of 00_scope.md R10 (log entry 17). -/
  stuck : Bool
  /-- The responses of the step just taken (30_encoding.md R60, R64; log entry 10). -/
  resp : Responses
  /-- The model's own: the inputs still to come, one tick a step (log entry 4). -/
  inbox : List Tick
  /-- The model's own: the port whose command is being served (log entry 23). -/
  port : Port
  /-- The model's own: whether a PROD or CONS command stands in this step (30_encoding.md R68;
  log entry 23). -/
  dataBusy : Bool
  /-- The model's own: the number of the next free value (log entry 9). -/
  draws : Nat
deriving DecidableEq, Repr

/-- Why a step ends in a fault (60_exceptions.md R112). -/
inductive Fault where
  /-- GET read a cell that holds `unwritten` (R112, 10_state.md R37). Raised by `readCell`. Safe: no
  state that meets the invariant of 10_state.md R32 raises it. -/
  | unwrittenCell
  /-- `release` found the Signal at `SIGNAL_MAX` (R112, R124). Raised by `release`. Safe. -/
  | signalOverflow
  /-- A cell number not below `C` (20_memory.md R40; log entry 11). Raised by `readCell` and
  `writeCell`. Safe: no reachable state raises it. -/
  | cellOutOfRange
  /-- The producer routine's `read()` with nothing pending (R119, 91 N17; log entry 13). Raised by
  `producerRun`. Safe: no reachable state raises it. -/
  | sourceEmpty
deriving DecidableEq, Repr

/-- Why an input has no meaning (60_exceptions.md R113). -/
inductive Refusal where
  /-- An instruction without a meaning yet, raised by `exec`'s arm. Safe. No arm raises it. -/
  | notModelled (mnemonic : String)
  /-- `C <= 0` (00_scope.md R6), raised at configuration and by `step`. Safe. -/
  | badCapacity
  /-- More than one producer or consumer agent (R130), raised at configuration and by `step`. Safe. -/
  | tooManyAgents
  /-- `C > C_MAX` (00_scope.md R8; log entry 14), raised at configuration and by `step`. Safe. -/
  | capacityAboveMax
  /-- `SIGNAL_MAX = 0` (00_scope.md R8; log entry 14), raised at configuration and by `step`. Safe. -/
  | badSignalMax
  /-- A reserved word (30_encoding.md R66), raised when a port's word is issued. Safe. -/
  | reservedEncoding
  /-- A command on a port that does not accept it (30_encoding.md R67), raised by every command. Safe. -/
  | wrongPort
  /-- A command other than INIT before the first INIT (70_reset_and_hazards.md R151). Safe. -/
  | notInitialised
  /-- INIT in the same step as a PROD or CONS command (30_encoding.md R68). Raised by INIT. Safe. -/
  | initConcurrent
  /-- `take` issued by the producer agent (R118). Raised by the producer's side. Safe. -/
  | takeInInterrupt
deriving DecidableEq, Repr

/-- The outcome of a step of this machine. -/
abbrev Result := Host.Outcome State Fault Refusal

/-- The four outcomes of a model step (00_scope.md R10). The host's `Outcome` has no fourth
constructor; `stepOutcome` reads this one from a `step` (log entry 17). -/
inductive StepOutcome where
  /-- Next state, with the responses in it. -/
  | next (s : State)
  /-- Fault: a state the rules call impossible. -/
  | fault (r : Fault)
  /-- Refusal: the input has no meaning. -/
  | refused (r : Refusal)
  /-- Stuck: an agent that was to make a step has none enabled. The state is not final (93 I19): `s`
  is what the machine goes on from. -/
  | stuck (s : State)
deriving DecidableEq, Repr

/-- Right after power-on (70_reset_and_hazards.md R150, R153): `init` is false, every cell is
`unwritten`, the Signal is at 0, no routine runs. The four registers and the pending bytes hold
whatever is given, the spec fixes none of them. -/
def State.powerOn (cfg : Config) (rIdx : Nat) (rMir : Bool) (wIdx : Nat) (wMir : Bool)
    (srcQ : List Byte) : State :=
  { cfg := cfg, stor := [], rIdx := rIdx, rMir := rMir, wIdx := wIdx, wMir := wMir, init := false,
    sig := 0, srcQ := srcQ, producer := .idle, consumer := .idle, takeRes := none,
    stuck := false, resp := { prod := none, cons := none, ctrl := none }, inbox := [], port := .ctrl,
    dataBusy := false, draws := 0 }

/-- The machine right after power-on. The zeros of the four registers (log entry 2), the empty
source (log entry 3) and the configuration (log entry 1) are DESIGN CHOICES. -/
def State.reset : State := State.powerOn Config.atReset 0 false 0 false []

end Sys2Proof.Machine
end

