-- ==== Sys2Proof/Machine/Operands.lean ====
section
/-! DEFINITION. Widths, the index advance, the port table, the responses and their words, and the
snapshot view of a register pair. -/

namespace Sys2Proof.Machine

open Sys2Proof

/-- The search behind `clog2`: the least `k` from the given one on with `n <= 2^k`, within `fuel`
tries. -/
def clog2From (n : Nat) : (fuel : Nat) → (k : Nat) → Nat
  | 0, k => k
  | fuel + 1, k => if n ≤ 2 ^ k then k else clog2From n fuel (k + 1)

/-- `clog2(n)`, the least `k >= 0` with `2^k >= n` (00_scope.md R7). -/
def clog2 (n : Nat) : Nat := clog2From n n 0

/-- `IW`, the width of an index register (00_scope.md R7). -/
def indexWidth (c : Config) : Nat := clog2 c.cap

/-- `LW`, the width of a count (00_scope.md R7). -/
def countWidth (c : Config) : Nat := clog2 (c.cap + 1)

/-- `VW`, the width of the value field of a response word (00_scope.md R7). -/
def valueWidth (c : Config) : Nat := max 8 (countWidth c)

/-- `adv(i, m)` for capacity `cap` (41_transfer.md R85). -/
def advance (cap i : Nat) (m : Bool) : Nat × Bool :=
  if i + 1 = cap then (0, !m) else (i + 1, m)

/-- Which commands a port accepts (30_encoding.md R60, R67). -/
def portAccepts : Port → Instr → Bool
  | .prod, .put _ => true
  | .prod, .len => true
  | .cons, .get => true
  | .cons, .len => true
  | .ctrl, .init => true
  | .ctrl, .len => true
  | .prod, .init => false
  | .prod, .get => false
  | .cons, .init => false
  | .cons, .put _ => false
  | .ctrl, .put _ => false
  | .ctrl, .get => false

/-- The `ok` bit of a response (30_encoding.md R64). -/
def Response.ok : Response → Bool
  | .unit => true
  | .stored ok => ok
  | .byte _ => true
  | .noData _ => false
  | .count _ => true

/-- The `value` bits of a response, `w` of them (30_encoding.md R64); free when GET had no byte. -/
def Response.value (w : Nat) : Response → BitVec w
  | .unit => 0
  | .stored _ => 0
  | .byte b => b.zeroExtend w
  | .noData draw => Config.emptyGetValue w draw
  | .count n => BitVec.ofNat w n

/-- The response word: `ok` at bit `VW`, `value` below it (30_encoding.md R64). -/
def responseWord (c : Config) (r : Response) : BitVec (valueWidth c + 1) :=
  BitVec.cons r.ok (r.value (valueWidth c))

/-- The response of one port. -/
def Responses.at (r : Responses) : Port → Option Response
  | .prod => r.prod
  | .cons => r.cons
  | .ctrl => r.ctrl

/-- Puts a response on one port. -/
def Responses.put (r : Responses) (p : Port) (v : Response) : Responses :=
  match p with
  | .prod => { r with prod := some v }
  | .cons => { r with cons := some v }
  | .ctrl => { r with ctrl := some v }

/-- The ports in the order a step serves them (20_memory.md R49, 30_encoding.md R68). -/
def Order.ports : Order → List Port
  | .pcs => [.prod, .cons, .ctrl]
  | .psc => [.prod, .ctrl, .cons]
  | .cps => [.cons, .prod, .ctrl]
  | .csp => [.cons, .ctrl, .prod]
  | .spc => [.ctrl, .prod, .cons]
  | .scp => [.ctrl, .cons, .prod]

/-- The `{mirror, index}` view of one side, for snapshots only (10_state.md R35): the mirror at bit
`IW`, the index below it. -/
def registerView (c : Config) (m : Bool) (i : Nat) : BitVec (indexWidth c + 1) :=
  BitVec.cons m (BitVec.ofNat (indexWidth c) i)

/-- The view of the read side (10_state.md R35). -/
def State.readView (s : State) : BitVec (indexWidth s.cfg + 1) := registerView s.cfg s.rMir s.rIdx

/-- The view of the write side (10_state.md R35). -/
def State.writeView (s : State) : BitVec (indexWidth s.cfg + 1) := registerView s.cfg s.wMir s.wIdx

end Sys2Proof.Machine
end

