-- ==== Sys2Proof/Machine/Flags.lean ====
section
/-! DEFINITION. The status the block derives from its indices and mirrors; it stores none. -/

namespace Sys2Proof.Machine

open Sys2Proof

/-- `occ(st)`, the occupied count (10_state.md R29). -/
def State.occ (s : State) : Nat :=
  if s.rIdx = s.wIdx ∧ s.rMir = s.wMir then 0
  else if s.rIdx = s.wIdx then s.cfg.cap
  else if s.rIdx < s.wIdx then s.wIdx - s.rIdx
  else s.cfg.cap - (s.rIdx - s.wIdx)

/-- `empty(st)` (10_state.md R30). -/
def State.isEmpty (s : State) : Bool := decide (s.occ = 0)

/-- `full(st)` (10_state.md R31). -/
def State.isFull (s : State) : Bool := decide (s.occ = s.cfg.cap)

/-- The EMPTY output (42_query.md R101); before the first INIT it is a free value. -/
def State.emptyOut (s : State) : Bool :=
  if s.init then s.isEmpty else Config.emptyBeforeInit s.draws

/-- The FULL output (42_query.md R102); before the first INIT it is a free value. -/
def State.fullOut (s : State) : Bool :=
  if s.init then s.isFull else Config.fullBeforeInit s.draws

/-- The cell that is `k` places into the occupied window (10_state.md R32). -/
def State.windowCell (s : State) (k : Nat) : Nat := (s.rIdx + k) % s.cfg.cap

end Sys2Proof.Machine
end

