-- ==== Sys2Proof/WellFormed.lean ====
section
/-! DEFINITION. What must hold of a command and of a configuration before they mean anything. -/

namespace Sys2Proof

/-- Every term of `Instr` is well formed: PUT's operand is a byte by its type, and the other
commands carry none (30_encoding.md R63). -/
def Instr.wellFormed : Instr → Bool
  | .init => true
  | .put _ => true
  | .get => true
  | .len => true

/-- The capacity check: `C >= 1` (00_scope.md R6). -/
def Config.capOk (c : Config) : Bool := decide (1 ≤ c.cap)

/-- The bound an implementation states on the capacity: `C <= C_MAX` (00_scope.md R8). -/
def Config.capMaxOk (c : Config) : Bool := c.capMax.all fun m => decide (c.cap ≤ m)

/-- The bound on the Signal is at least 1 (00_scope.md R8). -/
def Config.sigMaxOk (c : Config) : Bool := c.sigMax.all fun m => decide (1 ≤ m)

/-- At most one producer agent and at most one consumer agent (60_exceptions.md R130). DESIGN CHOICE
(log entry 26): a configuration with none on a port is not refused, R130 refuses only more than one. -/
def Config.agentsOk (c : Config) : Bool := decide (c.producers ≤ 1) && decide (c.consumers ≤ 1)

/-- A configuration of which a block exists. -/
def Config.wellFormed (c : Config) : Bool := c.capOk && c.capMaxOk && c.sigMaxOk && c.agentsOk

end Sys2Proof
end

