-- ==== Sys2Proof/Machine/Ops.lean ====
section
/-! DEFINITION. The named operations over storage, registers, responses and the Signal, the checks a
command makes, and the configuration. The block raises no exception and takes none
(60_exceptions.md R110, R115), so there is no operation for one. -/

namespace Sys2Proof.Machine

open Sys2Proof

/-- Goes on with the value of a next state; a fault or a refusal ends the step. -/
def andThen {α β : Type} (o : Host.Outcome α Fault Refusal) (f : α → Host.Outcome β Fault Refusal) :
    Host.Outcome β Fault Refusal :=
  match o with
  | .next a => f a
  | .fault r => .fault r
  | .refused r => .refused r

/-! ### Storage -/

/-- The canonical form of the storage: cell numbers strictly rising. No entry equals what an
unlisted cell reads as, since that is no byte (log entry 12). -/
abbrev Memory.wf (m : Memory) : Prop := m.Pairwise fun x y => x.1 < y.1

/-- One cell: `none` is `unwritten` (10_state.md R20, R37). -/
def Memory.read : Memory → Nat → Option Byte
  | [], _ => none
  | (x, v) :: m, a => if a = x then some v else Memory.read m a

/-- Writes one cell, keeping the canonical form. -/
def Memory.write : Memory → Nat → Byte → Memory
  | [], a, b => [(a, b)]
  | (x, v) :: m, a, b =>
    if a < x then (a, b) :: (x, v) :: m
    else if a = x then (a, b) :: m
    else (x, v) :: Memory.write m a b

/-- `MemRead(i, 1)` (20_memory.md R40) of a cell that must hold a byte (10_state.md R37). -/
def readCell (s : State) (i : Nat) : Host.Outcome Byte Fault Refusal :=
  if i < s.cfg.cap then
    match Memory.read s.stor i with
    | some b => .next b
    | none => .fault .unwrittenCell
  else .fault .cellOutOfRange

/-- `MemWrite(i, 1, b)` (20_memory.md R40). -/
def writeCell (s : State) (i : Nat) (b : Byte) : Result :=
  if i < s.cfg.cap then .next { s with stor := Memory.write s.stor i b }
  else .fault .cellOutOfRange

/-- The bytes of the occupied window, oldest first (10_state.md R32). -/
def State.contents (s : State) : List Byte :=
  (List.range s.occ).filterMap fun k => Memory.read s.stor (s.windowCell k)

/-! ### Registers and responses -/

/-- `(r_idx, r_mir) <- adv(r_idx, r_mir)` (41_transfer.md R87). -/
def State.advanceRead (s : State) : State :=
  { s with rIdx := (advance s.cfg.cap s.rIdx s.rMir).1, rMir := (advance s.cfg.cap s.rIdx s.rMir).2 }

/-- `(w_idx, w_mir) <- adv(w_idx, w_mir)` (41_transfer.md R86). -/
def State.advanceWrite (s : State) : State :=
  { s with wIdx := (advance s.cfg.cap s.wIdx s.wMir).1, wMir := (advance s.cfg.cap s.wIdx s.wMir).2 }

/-- `resp <- …` on the port being served (30_encoding.md R60). -/
def State.respond (s : State) (r : Response) : State := { s with resp := s.resp.put s.port r }

/-- The response that a GET on an empty buffer returns, on the port being served: `none`, its value
bits a fresh free value (30_encoding.md R64; log entries 7 and 9). -/
def State.respondNoData (s : State) : State :=
  { s with resp := s.resp.put s.port (.noData s.draws), draws := s.draws + 1 }

/-- What INIT writes: every cell `unwritten`, indices and mirrors 0, `init` true (40_init.md R80). -/
def State.clearRing (s : State) : State :=
  { s with stor := [], rIdx := 0, rMir := false, wIdx := 0, wMir := false, init := true }

/-- Serve a port: its command is the one being executed. -/
def State.withPort (s : State) (p : Port) : State := { s with port := p }

/-! ### The checks of a command -/

/-- The checks a decoded command makes, in the order of 30_encoding.md R69: wrong port (R67), before
INIT (70_reset_and_hazards.md R151), simultaneous INIT (R68). -/
def commandRefusal (i : Instr) (s : State) : Option Refusal :=
  if portAccepts s.port i = false then some .wrongPort
  else if i ≠ .init ∧ s.init = false then some .notInitialised
  else if i = .init ∧ s.dataBusy = true then some .initConcurrent
  else none

/-! ### The Signal -/

/-- `release()` (60_exceptions.md R124). -/
def release (s : State) : Result :=
  if s.cfg.sigMax = some s.sig then .fault .signalOverflow else .next { s with sig := s.sig + 1 }

/-- How a `take(t)` goes at one step of the consumer (60_exceptions.md R125), `none` for blocked.
`waiting` says whether it already blocked at an earlier step; only then can a finite timeout expire,
and only where no permit is there. `expire` is the free choice that it does. -/
def takeAttempt (t : Timeout) (waiting expire : Bool) (sig : Nat) : Option TakeResult :=
  if 0 < sig then some .ok
  else if waiting = true ∧ expire = true ∧ t = .finite then some .timedOut
  else none

/-- The permit count after a `take` attempt: one less where it returned `Ok` (60_exceptions.md R125). -/
def sigAfterTake (sig : Nat) : Option TakeResult → Nat
  | some .ok => sig - 1
  | some .timedOut => sig
  | none => sig

/-- What an attempt at `take` leaves: the permit count, its result, and the consumer's new state. -/
def State.afterTake (s : State) (r : Option TakeResult) (c : Consumer) : State :=
  { s with sig := sigAfterTake s.sig r, takeRes := r, consumer := c }

/-! ### Configuration -/

/-- The refusals of a configuration (60_exceptions.md R113; 00_scope.md R6, R8; R130). -/
def configRefusal (c : Config) : Option Refusal :=
  if c.capOk = false then some .badCapacity
  else if c.capMaxOk = false then some .capacityAboveMax
  else if c.sigMaxOk = false then some .badSignalMax
  else if c.agentsOk = false then some .tooManyAgents
  else none

/-- Builds a block after power-on from what is asked for, the capacity as the source's signed
number (00_scope.md R6; 60_exceptions.md R111, R130): refused where no such block exists. The
register values and pending bytes are the ones power-on happens to leave. -/
def configure (capacity : Int) (capMax sigMax : Option Nat) (producers consumers : Nat)
    (rIdx : Nat) (rMir : Bool) (wIdx : Nat) (wMir : Bool) (srcQ : List Byte) : Result :=
  match configRefusal { cap := capacity.toNat, capMax := capMax, sigMax := sigMax,
                         producers := producers, consumers := consumers } with
  | some r => .refused r
  | none => .next (State.powerOn { cap := capacity.toNat, capMax := capMax, sigMax := sigMax,
                                   producers := producers, consumers := consumers }
                    rIdx rMir wIdx wMir srcQ)

end Sys2Proof.Machine
end

