-- ==== Sys2Proof/Machine/Control.lean ====
section
/-! DEFINITION. The control family: INIT. -/

namespace Sys2Proof.Machine

open Sys2Proof

/-- INIT (40_init.md R80): the ring is empty afterwards, its bytes forgotten. -/
def execInit (s : State) : Result :=
  match commandRefusal .init s with
  | some r => .refused r
  | none => .next (s.clearRing.respond .unit)

end Sys2Proof.Machine
end

