-- ==== Sys2Proof/Machine/Query.lean ====
section
/-! DEFINITION. The query family: LEN. -/

namespace Sys2Proof.Machine

open Sys2Proof

/-- LEN (42_query.md R100). -/
def execLen (s : State) : Result :=
  match commandRefusal .len s with
  | some r => .refused r
  | none => .next (s.respond (.count s.occ))

end Sys2Proof.Machine
end

