-- ==== Sys2Proof/Machine/Transfer.lean ====
section
/-! DEFINITION. The data-transfer family: PUT and GET. -/

namespace Sys2Proof.Machine

open Sys2Proof

/-- PUT b (41_transfer.md R86): a full buffer drops the byte and answers `ok = 0`. -/
def execPut (b : Byte) (s : State) : Result :=
  match commandRefusal (.put b) s with
  | some r => .refused r
  | none =>
    if s.isFull then .next (s.respond (.stored false))
    else andThen (writeCell s s.wIdx b) fun s' => .next (s'.advanceWrite.respond (.stored true))

/-- GET (41_transfer.md R87): an empty buffer answers `none`; the cell read keeps its byte. -/
def execGet (s : State) : Result :=
  match commandRefusal .get s with
  | some r => .refused r
  | none =>
    if s.isEmpty then .next s.respondNoData
    else andThen (readCell s s.rIdx) fun b => .next (s.advanceRead.respond (.byte b))

end Sys2Proof.Machine
end

