-- ==== Sys2Proof/Machine/Dispatch.lean ====
section
/-! DEFINITION. One arm per command. -/

namespace Sys2Proof.Machine

open Sys2Proof

def exec (i : Instr) (s : State) : Host.Outcome State Fault Refusal :=
  match i with
  | .init => Sys2Proof.Machine.execInit s
  | .put b => Sys2Proof.Machine.execPut b s
  | .get => Sys2Proof.Machine.execGet s
  | .len => Sys2Proof.Machine.execLen s

end Sys2Proof.Machine
end

