-- ==== Sys2Proof/Machine/Agents.lean ====
section
/-! DEFINITION. Issuing a command word on a port, and the agents of 60_exceptions.md Part 2 and
Part 3: the producer and its routine `on_receive_ready`, the consumer and its routine
`read_byte_blocking`. A move that is not enabled is skipped (log entry 15). -/

namespace Sys2Proof.Machine

open Sys2Proof

/-- Issues a command word on a port: decoded, a reserved word refused first (30_encoding.md R66,
R69), and the command executed on that port. -/
def issue (p : Port) (w : Word) (s : State) : Result :=
  match decode w with
  | .reserved _ => .refused .reservedEncoding
  | .command i => exec i (s.withPort p)

/-! ### The producer -/

/-- The interrupt controller starts the routine where it is not running; a running routine is not
re-entered (60_exceptions.md R116, R120, R122). Before INIT as after it, DESIGN CHOICE (log
entry 27). -/
def interrupt (s : State) : State :=
  match s.producer with
  | .idle => { s with producer := .testing }
  | .testing | .reading | .putting _ | .releasing => s

/-- The next step of `on_receive_ready` (60_exceptions.md R121). Before INIT its PUT is refused
(70_reset_and_hazards.md R151) and its other steps run, DESIGN CHOICE (log entry 27). -/
def producerRun (s : State) : Result :=
  match s.producer with
  | .idle => .next s
  | .testing => .next { s with producer := if s.srcQ.isEmpty then .releasing else .reading }
  | .reading =>
    match s.srcQ with
    | [] => .fault .sourceEmpty
    | b :: rest => .next { s with srcQ := rest, producer := .putting b }
  | .putting b => andThen (issue .prod (encode (.put b)) s) fun s' => .next { s' with producer := .testing }
  | .releasing => andThen (release s) fun s' => .next { s' with producer := .idle }

/-- `release()` by the producer outside its routine (60_exceptions.md R117, R118; log entry 15).
Before INIT as after it, DESIGN CHOICE (log entry 27). -/
def producerRelease (s : State) : Result :=
  match s.producer with
  | .idle => release s
  | .testing | .reading | .putting _ | .releasing => .next s

/-- One move of the producer's side (60_exceptions.md R117, R118). -/
def producerMove (m : ProdMove) (s : State) : Result :=
  match m with
  | .word w => issue .prod w s
  | .interrupt => .next (interrupt s)
  | .run => producerRun s
  | .release => producerRelease s
  | .take _ => .refused .takeInInterrupt

/-! ### The consumer -/

/-- The state after `WAIT_FOR_DATA`'s GET: `RETURN` with the byte, or `BLOCKED_ON_SIGNAL`
(60_exceptions.md R126, R127). -/
def afterGet (t : Timeout) : Option Response → Consumer
  | some (.byte b) => .returned (.byte b)
  | some (.noData _) => .blockedOnSignal t false
  | some .unit => .blockedOnSignal t false
  | some (.stored _) => .blockedOnSignal t false
  | some (.count _) => .blockedOnSignal t false
  | none => .blockedOnSignal t false

/-- The state after `BLOCKED_ON_SIGNAL`'s attempt at `take` (60_exceptions.md R127). -/
def afterBlocked (t : Timeout) : Option TakeResult → Consumer
  | some .ok => .waitForData t
  | some .timedOut => .returned .timedOut
  | none => .blockedOnSignal t true

/-- The state after an attempt at a `take` outside `read_byte_blocking` (60_exceptions.md R125). -/
def afterBareTake (t : Timeout) : Option TakeResult → Consumer
  | some .ok => .idle
  | some .timedOut => .idle
  | none => .bareTake t

/-- The consumer has no enabled step: it waits without a timeout, and there is no permit. It is stuck
until a `release` (60_exceptions.md R125, 93 I19). -/
def State.consumerStuck (s : State) : Bool :=
  match s.consumer with
  | .blockedOnSignal .forever true => decide (s.sig = 0)
  | .bareTake .forever => decide (s.sig = 0)
  | _ => false

/-- The consumer's turn: the step is Stuck where it has no enabled step (00_scope.md R10; log entry
17). -/
def State.noteStuck (s : State) : State := { s with stuck := s.stuck || s.consumerStuck }

/-- The next step of the consumer (60_exceptions.md R125 to R127). Before INIT its GET is refused
(70_reset_and_hazards.md R151) and its other steps run, DESIGN CHOICE (log entry 27). A consumer
without an enabled step stays as it is, and the step is Stuck (`consumerMove`). -/
def consumerRun (expire : Bool) (s : State) : Result :=
  match s.consumer with
  | .idle => .next s
  | .returned _ => .next s
  | .waitForData t =>
    andThen (issue .cons (encode .get) s) fun s' => .next { s' with consumer := afterGet t s'.resp.cons }
  | .blockedOnSignal t waiting =>
    .next (s.afterTake (takeAttempt t waiting expire s.sig) (afterBlocked t (takeAttempt t waiting expire s.sig)))
  | .bareTake t =>
    .next (s.afterTake (takeAttempt t true expire s.sig) (afterBareTake t (takeAttempt t true expire s.sig)))

/-- Whether the consumer is in a call or blocked, and so can start nothing else. -/
def Consumer.busy : Consumer → Bool
  | .idle => false
  | .returned _ => false
  | .waitForData _ => true
  | .blockedOnSignal _ _ => true
  | .bareTake _ => true

/-- The task calls `read_byte_blocking(t)`: its state machine starts at `WAIT_FOR_DATA`
(60_exceptions.md R127). Before INIT as after it, DESIGN CHOICE (log entry 27). -/
def consumerCall (t : Timeout) (s : State) : State :=
  if s.consumer.busy then s else { s with consumer := .waitForData t }

/-- `release()` from task context (60_exceptions.md R118). Before INIT as after it, DESIGN CHOICE (log
entry 27). -/
def consumerRelease (s : State) : Result := if s.consumer.busy then .next s else release s

/-- `take(t)` outside `read_byte_blocking`: its first step (60_exceptions.md R118, R125; log
entry 16). Before INIT as after it, DESIGN CHOICE (log entry 27). -/
def consumerTake (t : Timeout) (s : State) : State :=
  if s.consumer.busy then s
  else s.afterTake (takeAttempt t false false s.sig) (afterBareTake t (takeAttempt t false false s.sig))

/-- One move of the consumer's side (60_exceptions.md R117, R118). Where the consumer is to make a
step and has none enabled, that is noted, and `stepOutcome` is Stuck (00_scope.md R10; log entry
17). A word put on CONS directly is served by the block, which never waits. -/
def consumerMove (m : ConsMove) (s : State) : Result :=
  match m with
  | .word w => issue .cons w s
  | .call t => .next (consumerCall t s.noteStuck)
  | .run expire => consumerRun expire s.noteStuck
  | .release => consumerRelease s.noteStuck
  | .take t => .next (consumerTake t s.noteStuck)

end Sys2Proof.Machine
end

