-- ==== Sys2Proof/Machine/Ticks.lean ====
section
/-! DEFINITION. One tick: everything that is presented in one step, taken in the tick's order. -/

namespace Sys2Proof.Machine

open Sys2Proof

/-- The command word that stands on PROD in this step: presented directly, or by the routine's PUT
(60_exceptions.md R121). -/
def prodWord (t : Tick) (s : State) : Option Word :=
  match t.prod, s.producer with
  | some (.word w), _ => some w
  | some .run, .putting b => some (encode (.put b))
  | _, _ => none

/-- The command word that stands on CONS in this step: presented directly, or by the routine's GET
(60_exceptions.md R126). -/
def consWord (t : Tick) (s : State) : Option Word :=
  match t.cons, s.consumer with
  | some (.word w), _ => some w
  | some (.run _), .waitForData _ => some (encode .get)
  | _, _ => none

/-- Whether a port holds a command, and not a reserved word or nothing (30_encoding.md R65, R68). -/
def holdsCommand : Option Word → Bool
  | none => false
  | some w =>
    match decode w with
    | .command _ => true
    | .reserved _ => false

/-- Whether CTRL holds INIT. -/
def holdsInit : Option Word → Bool
  | none => false
  | some w => decide (decode w = .command .init)

/-- The start of a step: arrivals are appended (60_exceptions.md R119; log entry 5), the outputs and
the outcome of the step before are gone, and it is known whether a PROD or CONS command stands in
this step (30_encoding.md R68). -/
def beginTick (t : Tick) (s : State) : State :=
  { s with srcQ := s.srcQ ++ t.arrivals, takeRes := none, stuck := false,
           resp := { prod := none, cons := none, ctrl := none },
           dataBusy := holdsCommand (prodWord t s) || holdsCommand (consWord t s),
           draws := s.draws + 1 }

/-- The end of a step: no port is being served. -/
def endTick (s : State) : State := { s with port := .ctrl, dataBusy := false }

/-- What one port does in this step, however many agents the configuration connects to it (log
entry 26). -/
def servePort (t : Tick) (p : Port) (s : State) : Result :=
  match p with
  | .prod =>
    match t.prod with
    | none => .next s
    | some m => producerMove m s
  | .cons =>
    match t.cons with
    | none => .next s
    | some m => consumerMove m s
  | .ctrl =>
    match t.ctrl with
    | none => .next s
    | some w => issue .ctrl w s

/-- The ports one after another, each seeing the effect of those before it (20_memory.md R48). The
first fault or refusal met is the step's. DESIGN CHOICE (log entry 25): where one port's move faults
and another's is refused in the same step, the spec names no outcome (00_scope.md R10, 30_encoding.md
R66, 60_exceptions.md R116), and the order in which the ports are served decides. -/
def servePorts (t : Tick) : List Port → State → Result
  | [], s => .next s
  | p :: ps, s => andThen (servePort t p s) (servePorts t ps)

/-- The order of a tick: the one it chose (20_memory.md R49). DESIGN CHOICE (log entry 6): an INIT on
CTRL is served before the other two ports, which keep the order the tick chose for them. A command
beside it is refused in every order (30_encoding.md R68), and no other move touches what INIT does. -/
def portOrder (t : Tick) : List Port :=
  if holdsInit t.ctrl then .ctrl :: t.order.ports.filter (fun p => decide (p ≠ .ctrl))
  else t.order.ports

/-- One tick. A fault or a refusal of any port is the step's: none of it takes place
(00_scope.md R9, R10). -/
def runTick (t : Tick) (s : State) : Result :=
  andThen (servePorts t (portOrder t) (beginTick t s)) fun s' => .next (endTick s')

/-- Which of the four outcomes of 00_scope.md R10 an outcome is: a next state in which a consumer
without an enabled step was to make one is Stuck (log entry 17). -/
def outcomeOf : Result → StepOutcome
  | .next s => if s.stuck then .stuck s else .next s
  | .fault r => .fault r
  | .refused r => .refused r

/-- The tick that presents one command word on one port and nothing else. -/
def wordTick (p : Port) (w : Word) : Tick :=
  match p with
  | .prod => { Tick.quiet with prod := some (.word w) }
  | .cons => { Tick.quiet with cons := some (.word w) }
  | .ctrl => { Tick.quiet with ctrl := some w }

/-- A port that accepts the command of a word: CTRL for INIT and LEN, and for a reserved word, which
no port accepts (30_encoding.md R60; log entry 22). -/
def portFor (w : Word) : Port :=
  match decode w with
  | .command .init => .ctrl
  | .command (.put _) => .prod
  | .command .get => .cons
  | .command .len => .ctrl
  | .reserved _ => .ctrl

/-- The tick of the next step: the first of the inbox, or a quiet one where nothing is left to
present (log entry 4). -/
def nextTick (s : State) : Tick := s.inbox.headD Tick.quiet

/-- The state with that tick taken from the inbox. -/
def takeTick (s : State) : State := { s with inbox := s.inbox.tail }

/-- Presents a tick before everything else in the inbox. -/
def presentTick (t : Tick) (s : State) : State := { s with inbox := t :: s.inbox }

end Sys2Proof.Machine
end

