-- ==== Sys2Proof/Machine/Step.lean ====
section
/-! DEFINITION. One step of the machine, and the placing of one command where the next step takes
it. -/

namespace Sys2Proof.Machine

open Sys2Proof

/-- One step: a configuration of which no block exists is refused (00_scope.md R6,
60_exceptions.md R130); else the next tick of the inbox is run. -/
def step (s : State) : Host.Outcome State Fault Refusal :=
  match configRefusal s.cfg with
  | some r => .refused r
  | none => runTick (nextTick s) (takeTick s)

/-- The outcome of a step, one of the four of 00_scope.md R10. -/
def stepOutcome (s : State) : StepOutcome := outcomeOf (step s)

/-- `s` with the command word `w` presented in the next step, on a port that accepts it
(log entries 4 and 22). -/
def State.withFetchWord (s : State) (nbits w : Nat) : State :=
  match wordOfTable nbits w with
  | none => s
  | some v => presentTick (wordTick (portFor v) v) s

end Sys2Proof.Machine
end

