-- ==== Sys2Proof/Machine/Assembler.lean ====
section
/-! DEFINITION. The textual form of commands and the pseudo-instructions (30_encoding.md R70 to
R72), read character by character. Spaces, hex letters and blank lines: log entry 20. -/

namespace Sys2Proof.Machine

open Sys2Proof

/-- What a line of assembler says (30_encoding.md R70 to R72). -/
inductive AsmCommand where
  | plain (i : Instr)
  /-- `PUTS "<text>"`. -/
  | puts (text : List Byte)
  /-- `GETN n`. -/
  | getn (n : Nat)
deriving DecidableEq, Repr

/-- The commands a line stands for, in order: PUTS is for PROD only (30_encoding.md R71), GETN for
CONS only (R72). -/
def expandCommand : Port → AsmCommand → Option (List Instr)
  | _, .plain i => some [i]
  | .prod, .puts text => some (text.map Instr.put)
  | .cons, .puts _ => none
  | .ctrl, .puts _ => none
  | .cons, .getn n => some (List.replicate n .get)
  | .prod, .getn _ => none
  | .ctrl, .getn _ => none

/-- Leaves out leading spaces and tabs. -/
def skipSpaces : List Char → List Char
  | [] => []
  | c :: cs => if c = ' ' ∨ c = '\t' then skipSpaces cs else c :: cs

/-- Reads a fixed word at the head of the text. -/
def readWord : List Char → List Char → Option (List Char)
  | [], cs => some cs
  | _ :: _, [] => none
  | w :: ws, c :: cs => if c = w then readWord ws cs else none

/-- Digits are runs of characters with consecutive ASCII codes: the value of `c` in the run of
`count` characters that begins at `first`, whose first character is worth `base`. -/
def digitOfRun (first : Char) (count base : Nat) (c : Char) : Option Nat :=
  if first.toNat ≤ c.toNat ∧ c.toNat < first.toNat + count then some (base + (c.toNat - first.toNat))
  else none

/-- A digit of a `decimal` (30_encoding.md R70). -/
def decimalDigit : Char → Option Nat := digitOfRun '0' 10 0

/-- The `hex` of 30_encoding.md R70, a letter of either case (log entry 20). -/
def hexDigit (c : Char) : Option Nat :=
  [decimalDigit c, digitOfRun 'A' 6 10 c, digitOfRun 'a' 6 10 c].findSome? id

/-- Reads the decimal digits at the head of the text: their value and how many there are. Leading
zeros are accepted (log entry 20). -/
def readDecimal : List Char → Nat → Nat → Nat × Nat × List Char
  | [], v, k => (v, k, [])
  | c :: cs, v, k =>
    match decimalDigit c with
    | some d => readDecimal cs (10 * v + d) (k + 1)
    | none => (v, k, c :: cs)

/-- Whether a character is printable ASCII. -/
def printable (c : Char) : Bool := decide (0x20 ≤ c.toNat ∧ c.toNat ≤ 0x7E)

/-- Reads the decimal form of a byte, `0 .. 255` (30_encoding.md R70). -/
def readDecimalByte (cs : List Char) : Option (Byte × List Char) :=
  match readDecimal cs 0 0 with
  | (v, k, rest) => if 0 < k ∧ v < 256 then some (BitVec.ofNat 8 v, rest) else none

/-- Reads a byte: `0x` and two hex digits, a decimal, or a character in single quotes
(30_encoding.md R70). -/
def readByte : List Char → Option (Byte × List Char)
  | '0' :: 'x' :: h :: l :: rest =>
    match hexDigit h, hexDigit l with
    | some a, some b => some (BitVec.ofNat 8 (16 * a + b), rest)
    | _, _ => none
  | '\'' :: c :: '\'' :: rest =>
    if printable c then some (BitVec.ofNat 8 c.toNat, rest) else none
  | cs => readDecimalByte cs

/-- Reads the text of PUTS up to its closing quote: one byte a character (30_encoding.md R71). -/
def readText : List Char → List Byte → Option (List Byte × List Char)
  | [], _ => none
  | c :: cs, acc =>
    if c = '"' then some (acc.reverse, cs)
    else if printable c then readText cs (BitVec.ofNat 8 c.toNat :: acc)
    else none

/-- Reads a port's name (30_encoding.md R70). -/
def readPort (cs : List Char) : Option (Port × List Char) :=
  match readWord ['P', 'R', 'O', 'D'] cs, readWord ['C', 'O', 'N', 'S'] cs, readWord ['C', 'T', 'R', 'L'] cs with
  | some rest, _, _ => some (.prod, rest)
  | none, some rest, _ => some (.cons, rest)
  | none, none, some rest => some (.ctrl, rest)
  | none, none, none => none

/-- Whether what is left of a line is blank or a comment: `;` starts a comment (30_encoding.md R70). -/
def endOfLine (cs : List Char) : Bool :=
  match skipSpaces cs with
  | [] => true
  | c :: _ => decide (c = ';')

/-- Whether a keyword ends here: at the line's end, a space, a tab, a comment or a quote. DESIGN
CHOICE (log entry 20): R70 is silent, and so `PUT42` and `PUT0x2A` do not assemble. -/
def endOfWord : List Char → Bool
  | [] => true
  | c :: _ => decide (c = ' ' ∨ c = '\t' ∨ c = ';' ∨ c = '"' ∨ c = '\'')

/-- Reads a command without an operand. -/
def readPlain (name : List Char) (i : Instr) (cs : List Char) : Option (AsmCommand × List Char) :=
  match readWord name cs with
  | some rest => if endOfWord rest then some (.plain i, rest) else none
  | none => none

/-- Reads `PUT byte` (30_encoding.md R70). -/
def readPut (cs : List Char) : Option (AsmCommand × List Char) :=
  match readWord ['P', 'U', 'T'] cs with
  | some rest =>
    if endOfWord rest then (readByte (skipSpaces rest)).map fun x => (.plain (.put x.1), x.2) else none
  | none => none

/-- Reads `PUTS "<text>"` (30_encoding.md R71). -/
def readPuts (cs : List Char) : Option (AsmCommand × List Char) :=
  match readWord ['P', 'U', 'T', 'S'] cs with
  | some rest =>
    match readWord ['"'] (skipSpaces rest) with
    | some text => (readText text []).map fun x => (.puts x.1, x.2)
    | none => none
  | none => none

/-- Reads `GETN n` (30_encoding.md R72). -/
def readGetn (cs : List Char) : Option (AsmCommand × List Char) :=
  match readWord ['G', 'E', 'T', 'N'] cs with
  | some rest =>
    if endOfWord rest then
      match readDecimal (skipSpaces rest) 0 0 with
      | (n, k, rest') => if 0 < k then some (.getn n, rest') else none
    else none
  | none => none

/-- Reads a command or pseudo-instruction (30_encoding.md R70 to R72). -/
def readCommand (cs : List Char) : Option (AsmCommand × List Char) :=
  (readPlain ['I', 'N', 'I', 'T'] .init cs).orElse fun _ =>
  (readPlain ['L', 'E', 'N'] .len cs).orElse fun _ =>
  (readPlain ['G', 'E', 'T'] .get cs).orElse fun _ =>
  (readPut cs).orElse fun _ =>
  (readPuts cs).orElse fun _ => readGetn cs

/-- One line `port ':' command` with its comment (30_encoding.md R70). -/
def readLine (cs : List Char) : Option (Port × AsmCommand) :=
  match readPort (skipSpaces cs) with
  | none => none
  | some (p, rest) =>
    match readWord [':'] (skipSpaces rest) with
    | none => none
    | some rest' =>
      match readCommand (skipSpaces rest') with
      | none => none
      | some (c, tail) => if endOfLine tail then some (p, c) else none

/-- The commands of one line, each with its port; a blank or comment line has none. -/
def assembleLine (cs : List Char) : Option (List (Port × Instr)) :=
  if endOfLine cs then some []
  else
    match readLine cs with
    | none => none
    | some (p, c) => (expandCommand p c).map fun is => is.map fun i => (p, i)

/-- The ticks of a program: one command word a step, in the order of its lines. -/
def assemble : List (List Char) → Option (List Tick)
  | [] => some []
  | line :: lines =>
    match assembleLine line, assemble lines with
    | some cs, some ts => some (cs.map (fun x => wordTick x.1 (encode x.2)) ++ ts)
    | _, _ => none

/-- The hex digit of a value below 16 in the spec's upper case, the digits and the letters each a
run of ASCII codes. -/
def hexChar (n : Nat) : Char := Char.ofNat (n + (if n < 10 then 0x30 else 0x41 - 10))

/-- A port's name. -/
def Port.text : Port → List Char
  | .prod => ['P', 'R', 'O', 'D']
  | .cons => ['C', 'O', 'N', 'S']
  | .ctrl => ['C', 'T', 'R', 'L']

/-- The text of a command, a PUT's byte in its hexadecimal form. -/
def commandText : Instr → List Char
  | .init => ['I', 'N', 'I', 'T']
  | .put b => ['P', 'U', 'T', ' ', '0', 'x', hexChar (b.toNat / 16), hexChar (b.toNat % 16)]
  | .get => ['G', 'E', 'T']
  | .len => ['L', 'E', 'N']

/-- The line that stands for one command on one port (30_encoding.md R70). -/
def lineText (p : Port) (i : Instr) : List Char := Port.text p ++ [':', ' '] ++ commandText i

end Sys2Proof.Machine
end

