-- ==== Sys2Proof/Machine/Split.lean ====
section
/-! DEFINITION. A split implementation of PUT and GET that keeps the order of 20_memory.md R50: each
command takes three stages, and the stages of the two sides interleave freely. `step` does not use
it; the block's own commands are atomic (R45). Log entry 21. -/

namespace Sys2Proof.Machine

open Sys2Proof

/-- Where a split PUT stands. -/
inductive PutStage where
  /-- No PUT is under way. -/
  | idle
  /-- The full test passed, on one consistent read of the other side's pair. -/
  | tested (b : Byte)
  /-- The byte is in its cell; the new write pair is not yet visible. -/
  | written (b : Byte)
deriving DecidableEq, Repr

/-- Where a split GET stands. -/
inductive GetStage where
  /-- No GET is under way. -/
  | idle
  /-- The empty test passed, on one consistent read of the other side's pair. -/
  | tested
  /-- The byte has been read; the new read pair is not yet visible. -/
  | fetched (b : Byte)
deriving DecidableEq, Repr

/-- The split machine: the block and environment, and the two commands under way. -/
structure SplitState where
  st : State
  put : PutStage
  get : GetStage
deriving DecidableEq, Repr

/-- One stage of one side. -/
inductive SplitMove where
  /-- PUT b begins: the full test. -/
  | putStart (b : Byte)
  /-- `MemWrite(w_idx, 1, b)`. -/
  | putWrite
  /-- The new `w_idx`, `w_mir` become visible; the response is given. -/
  | putPublish
  /-- GET begins: the empty test. -/
  | getStart
  /-- `MemRead(r_idx, 1)`. -/
  | getRead
  /-- The new `r_idx`, `r_mir` become visible; the response is given. -/
  | getPublish
deriving DecidableEq, Repr

/-- The full test of a split PUT; a full buffer answers at once (41_transfer.md R86). -/
def splitPutStart (b : Byte) (x : SplitState) : SplitState :=
  if x.st.isFull then { x with st := (x.st.withPort .prod).respond (.stored false) }
  else { x with put := .tested b }

/-- The empty test of a split GET; an empty buffer answers at once (41_transfer.md R87). -/
def splitGetStart (x : SplitState) : SplitState :=
  if x.st.isEmpty then { x with st := (x.st.withPort .cons).respondNoData }
  else { x with get := .tested }

/-- One stage of the split machine. A stage that is not the next one of its side does nothing. -/
def splitStep (m : SplitMove) (x : SplitState) : Host.Outcome SplitState Fault Refusal :=
  match m, x.put, x.get with
  | .putStart b, .idle, _ => .next (splitPutStart b x)
  | .putWrite, .tested b, _ =>
    andThen (writeCell x.st x.st.wIdx b) fun st => .next { x with st := st, put := .written b }
  | .putPublish, .written _, _ =>
    .next { x with st := ((x.st.withPort .prod).advanceWrite).respond (.stored true), put := .idle }
  | .getStart, _, .idle => .next (splitGetStart x)
  | .getRead, _, .tested =>
    andThen (readCell x.st x.st.rIdx) fun b => .next { x with get := .fetched b }
  | .getPublish, _, .fetched b =>
    .next { x with st := ((x.st.withPort .cons).advanceRead).respond (.byte b), get := .idle }
  | _, _, _ => .next x

/-- The command a stage completes, where it completes one: the atomic command of 20_memory.md R45
that takes effect at this stage. -/
def splitCompletes (m : SplitMove) (x : SplitState) : Option Instr :=
  match m, x.put, x.get with
  | .putStart b, .idle, _ => if x.st.isFull then some (.put b) else none
  | .putPublish, .written b, _ => some (.put b)
  | .getStart, _, .idle => if x.st.isEmpty then some .get else none
  | .getPublish, _, .fetched _ => some .get
  | _, _, _ => none

/-- The port of the side a stage belongs to. -/
def SplitMove.port : SplitMove → Port
  | .putStart _ => .prod
  | .putWrite => .prod
  | .putPublish => .prod
  | .getStart => .cons
  | .getRead => .cons
  | .getPublish => .cons

end Sys2Proof.Machine
end

