-- ==== Sys2Proof/Safety.lean ====
section
/-! DEFINITION. The terms in which claims are made: the invariant of every reachable state, the queue
the block implements, what a run delivers, wake-ups, and the premises on infinite runs. -/

namespace Sys2Proof.Machine

open Sys2Proof

/-! ### The invariant -/

/-- Both indices lie in `[0, C)` (10_state.md R22, R24). -/
abbrev State.indicesInRange (s : State) : Prop := s.rIdx < s.cfg.cap ∧ s.wIdx < s.cfg.cap

/-- `Inv(st)` of 10_state.md R32. -/
abbrev State.mirrorsMatch (s : State) : Prop :=
  (s.wMir = s.rMir ∧ s.rIdx ≤ s.wIdx) ∨ (s.wMir ≠ s.rMir ∧ s.wIdx ≤ s.rIdx)

/-- Every cell of the occupied window holds a byte (10_state.md R32). -/
abbrev State.windowWritten (s : State) : Prop :=
  ∀ k < s.occ, (Memory.read s.stor (s.windowCell k)).isSome = true

/-- The storage is canonical and holds only cells that exist (20_memory.md R40). -/
abbrev State.storageOk (s : State) : Prop :=
  Memory.wf s.stor ∧ ∀ c ∈ s.stor, c.1 < s.cfg.cap

/-- What holds of the ring once INIT has run (10_state.md R32). -/
abbrev State.ringOk (s : State) : Prop :=
  s.init = true → s.indicesInRange ∧ s.mirrorsMatch ∧ s.windowWritten

/-- The Signal is within its bound (60_exceptions.md R124). -/
abbrev State.signalOk (s : State) : Prop := ∀ m ∈ s.cfg.sigMax, s.sig ≤ m

/-- The producer routine reads only what is available (60_exceptions.md R119, R121). -/
abbrev State.producerOk (s : State) : Prop := s.producer = .reading → s.srcQ ≠ []

/-- The invariant of every state a run reaches. -/
abbrev State.Inv (s : State) : Prop :=
  s.cfg.wellFormed = true ∧ s.storageOk ∧ s.ringOk ∧ s.signalOk ∧ s.producerOk

/-- The ring is in use: initialised, and the invariant holds. -/
abbrev State.Live (s : State) : Prop := s.Inv ∧ s.init = true

/-! ### The queue behind the ring -/

/-- The responses as the model types of 30_encoding.md R64. -/
inductive Answer where
  | unit
  | stored (ok : Bool)
  | byte (b : Option Byte)
  | count (n : Nat)
deriving DecidableEq, Repr

/-- The model type of a response (30_encoding.md R64). -/
def Response.answer : Response → Answer
  | .unit => .unit
  | .stored ok => .stored ok
  | .byte b => .byte (some b)
  | .noData _ => .byte none
  | .count n => .count n

/-- A command on a bounded first-in first-out queue of `cap` bytes: drop on full (20_memory.md R51,
41_transfer.md R88). -/
def queueStep (cap : Nat) (q : List Byte) : Instr → List Byte × Answer
  | .init => ([], .unit)
  | .put b => if q.length = cap then (q, .stored false) else (q ++ [b], .stored true)
  | .get => match q with
    | [] => ([], .byte none)
    | b :: rest => (rest, .byte (some b))
  | .len => (q, .count q.length)

/-- Commands one after another on the queue. -/
def queueRun (cap : Nat) : List Instr → List Byte → List Byte × List Answer
  | [], q => (q, [])
  | i :: is, q =>
    ((queueRun cap is (queueStep cap q i).1).1,
      (queueStep cap q i).2 :: (queueRun cap is (queueStep cap q i).1).2)

/-- The port a command is issued on: its own, and CTRL for LEN (30_encoding.md R60). -/
def homePort : Instr → Port
  | .init => .ctrl
  | .put _ => .prod
  | .get => .cons
  | .len => .ctrl

/-- Commands one after another on the block, each on its port, with their responses. -/
def runCommands : List Instr → State → Host.Outcome (State × List (Option Answer)) Fault Refusal
  | [], s => .next (s, [])
  | i :: is, s =>
    andThen (exec i (s.withPort (homePort i))) fun s' =>
      andThen (runCommands is s') fun x =>
        .next (x.1, ((s'.resp.at (homePort i)).map Response.answer) :: x.2)

/-! ### What a run delivers -/

/-- What is observed in one or more steps. -/
structure Log where
  /-- The bytes of the PUTs, in order, each with its `ok`. -/
  puts : List (Byte × Bool)
  /-- The bytes GETs returned, in order. -/
  returned : List Byte
  /-- The bytes that arrived in `src_q`, in order. -/
  arrived : List Byte
deriving DecidableEq, Repr

/-- The bytes whose PUT returned `ok = 1`. -/
def Log.accepted (l : Log) : List Byte := (l.puts.filter fun x => x.2).map fun x => x.1

/-- The bytes of all PUTs, accepted or dropped. -/
def Log.offered (l : Log) : List Byte := l.puts.map fun x => x.1

/-- One log after another. -/
def Log.append (l m : Log) : Log :=
  { puts := l.puts ++ m.puts, returned := l.returned ++ m.returned, arrived := l.arrived ++ m.arrived }

/-- The byte a port's word would PUT, if it is a PUT. -/
def putByte : Option Word → Option Byte
  | none => none
  | some w =>
    match decode w with
    | .command (.put b) => some b
    | .command .init => none
    | .command .get => none
    | .command .len => none
    | .reserved _ => none

/-- The PUT of a step, with its response. -/
def loggedPut : Option Byte → Option Response → List (Byte × Bool)
  | some b, some (.stored ok) => [(b, ok)]
  | _, _ => []

/-- The byte a GET returned. -/
def loggedGet : Option Response → List Byte
  | some (.byte b) => [b]
  | _ => []

/-- What is observed of a tick `t` run from `s` to `s'`. -/
def tickLog (t : Tick) (s s' : State) : Log :=
  { puts := loggedPut (putByte (prodWord t s)) s'.resp.prod
    returned := loggedGet s'.resp.cons
    arrived := t.arrivals }

/-- `n` steps and what is observed of them. -/
def logRun : Nat → State → Host.Outcome (State × Log) Fault Refusal
  | 0, s => .next (s, { puts := [], returned := [], arrived := [] })
  | n + 1, s =>
    andThen (step s) fun s' =>
      andThen (logRun n s') fun x => .next (x.1, (tickLog (nextTick s) s s').append x.2)

/-- The byte the producer routine has read and not yet put. -/
def Producer.inHand : Producer → List Byte
  | .putting b => [b]
  | .idle => []
  | .testing => []
  | .reading => []
  | .releasing => []

/-- No INIT is presented: the premise of 70_reset_and_hazards.md R155. -/
def Tick.noInit (t : Tick) : Prop := t.ctrl ≠ some (encode .init)

/-- No PUT word is put on PROD directly: every PUT is the producer routine's (60_exceptions.md R121).
Other words may be, as the LEN that R117 gives the producer. -/
def Tick.noDirectPut (t : Tick) : Prop :=
  ∀ w b, t.prod = some (.word w) → decode w ≠ .command (.put b)

/-! ### Wake-ups and blocking -/

/-- Whether the consumer has found the buffer empty and is about to wait, or waits. -/
def State.blocked (s : State) : Bool :=
  match s.consumer with
  | .blockedOnSignal _ _ => true
  | .idle => false
  | .returned _ => false
  | .waitForData _ => false
  | .bareTake _ => false

/-- No lost wake-up (60_exceptions.md R128): a blocked consumer with data to read has a permit, or
the producer routine is running and its `release` is still to come. -/
def State.wakeOwed (s : State) : Prop :=
  s.init = true → s.blocked = true → s.isEmpty = false → 0 < s.sig ∨ s.producer ≠ .idle

/-- An infinite run under a schedule: the states, each step presented the schedule's next tick. -/
def IsRun (ticks : Nat → Tick) (states : Nat → State) : Prop :=
  ∀ n, step { states n with inbox := [ticks n] } = .next (states (n + 1))

/-- The fairness premise of 60_exceptions.md R120: while bytes are available and the routine is not
running, the interrupt controller starts it eventually (log entry 18). -/
def interruptFair (ticks : Nat → Tick) (states : Nat → State) : Prop :=
  ∀ n, (∀ m ≥ n, (states m).srcQ ≠ [] ∧ (states m).producer = .idle) →
    ∃ m ≥ n, (ticks m).prod = some .interrupt

/-- `n` steps of the producer routine with nothing between them (60_exceptions.md R121). -/
def producerRuns : Nat → State → Result
  | 0, s => .next s
  | n + 1, s => andThen (producerRun s) (producerRuns n)

/-- The source's single-core schedule, one of those the model admits (60_exceptions.md R116, R117):
while the producer routine runs, the consumer makes no move. -/
def singleCore (t : Tick) (s : State) : Prop := s.producer ≠ .idle → t.cons = none

/-! ### Laps -/

/-- `n` advances of an index and its mirror (41_transfer.md R85). -/
def advanceTimes (cap : Nat) : Nat → Nat × Bool → Nat × Bool
  | 0, x => x
  | n + 1, x => advanceTimes cap n (advance cap x.1 x.2)

/-! ### Before INIT -/

/-- The same state but for the four registers that power-on leaves unspecified
(70_reset_and_hazards.md R150). -/
def State.withRegisters (s : State) (rIdx : Nat) (rMir : Bool) (wIdx : Nat) (wMir : Bool) : State :=
  { s with rIdx := rIdx, rMir := rMir, wIdx := wIdx, wMir := wMir }

/-- The four registers of a state, in the order of 95_test_vectors.md. -/
def State.registers (s : State) : Nat × Bool × Nat × Bool := (s.rIdx, s.rMir, s.wIdx, s.wMir)

/-! ### The split machine -/

/-- What a split PUT under way relies on (20_memory.md R50). -/
def SplitState.putOk (x : SplitState) : Bool :=
  match x.put with
  | .idle => true
  | .tested _ => !x.st.isFull
  | .written b => !x.st.isFull && decide (Memory.read x.st.stor x.st.wIdx = some b)

/-- What a split GET under way relies on (20_memory.md R50). -/
def SplitState.getOk (x : SplitState) : Bool :=
  match x.get with
  | .idle => true
  | .tested => !x.st.isEmpty
  | .fetched b => !x.st.isEmpty && decide (Memory.read x.st.stor x.st.rIdx = some b)

/-- The invariant of the split machine. -/
abbrev SplitState.Inv (x : SplitState) : Prop :=
  x.st.Live ∧ x.putOk = true ∧ x.getOk = true

end Sys2Proof.Machine
end

