-- ==== Sys2Proof/Certificates/Slice0/Obligations.lean ====
section
/-! DEFINITION. The statements for the provers. Each docstring says which rule of spec/ it
formalises. Every statement is about every configuration: the capacity is a field of the state. -/

open Sys2Proof Sys2Proof.Machine

/-! ### Encoding -/

/-- 30_encoding.md R62, R69: a word decodes to a command exactly when it is that command's word, for
all words and all commands with every operand. -/
def Obligations.DecodeInvertsEncode : Prop :=
  (∀ i : Instr, i.wellFormed = true → decode (encode i) = .command i) ∧
  ∀ (w : Word) (i : Instr), decode w = .command i → encode i = w

/-- 30_encoding.md R66: the reserved words are those with `op` in {00, 10, 11} and `data` not 0x00,
765 in all, and one on any port is refused. -/
def Obligations.ReservedWordsAreRefused : Prop :=
  (∀ w : Word, (∃ v, decode w = .reserved v) ↔
    (opField w = 0b00#2 ∨ opField w = 0b10#2 ∨ opField w = 0b11#2) ∧ dataField w ≠ 0x00#8) ∧
  (∀ w v : Word, decode w = .reserved v → v = w) ∧
  ((List.range 1024).filter fun n => decide (decode (BitVec.ofNat 10 n) = .reserved (BitVec.ofNat 10 n))).length
    = 765 ∧
  (∀ (w v : Word) (p : Port) (s : State), decode w = .reserved v →
    issue p w s = .refused .reservedEncoding) ∧
  ∀ (s : State) (p : Port) (w v : Word) (rest : List Tick), s.cfg.wellFormed = true →
    decode w = .reserved v → s.inbox = wordTick p w :: rest → step s = .refused .reservedEncoding

/-- 30_encoding.md R62: a word selects a row by its match and mask exactly when it decodes to that
row's command, for PUT with the data bits as its byte; so at most one row matches, and a word that no
row matches is reserved. -/
def Obligations.RowsSelectCommands : Prop :=
  ∀ w : Word,
    (w &&& 0x3FF#10 = 0x000#10 ↔ decode w = .command .init) ∧
    (w &&& 0x300#10 = 0x100#10 ↔ decode w = .command (.put (w.setWidth 8))) ∧
    (w &&& 0x3FF#10 = 0x200#10 ↔ decode w = .command .get) ∧
    (w &&& 0x3FF#10 = 0x300#10 ↔ decode w = .command .len) ∧
    (w &&& 0x3FF#10 ≠ 0x000#10 → w &&& 0x300#10 ≠ 0x100#10 → w &&& 0x3FF#10 ≠ 0x200#10 →
      w &&& 0x3FF#10 ≠ 0x300#10 → decode w = .reserved w)

/-- Words written out in 95_test_vectors.md §2 and §3, and what they decode to. -/
def Obligations.KnownWordsDecode : Prop :=
  decode 0x000#10 = .command .init ∧ decode 0x100#10 = .command (.put 0x00#8) ∧
  decode 0x12A#10 = .command (.put 0x2A#8) ∧ decode 0x1FF#10 = .command (.put 0xFF#8) ∧
  decode 0x200#10 = .command .get ∧ decode 0x300#10 = .command .len ∧
  decode 0x001#10 = .reserved 0x001#10 ∧ decode 0x2FF#10 = .reserved 0x2FF#10

/-! ### The commands -/

/-- 40_init.md R80: INIT's word, its effect on the whole state, what it leaves of the status, its
idempotency, and each of its refusals; the last clause is 70_reset_and_hazards.md R155 as a step, with
the PROD or CONS command presented directly or by an agent's routine, in every order of the tick. -/
def Obligations.InitResetsRing : Prop :=
  encode .init = 0x000#10 ∧
  (∀ s : State, s.port = .ctrl → s.dataBusy = false →
    exec .init s = .next { s with stor := [], rIdx := 0, rMir := false, wIdx := 0, wMir := false,
                                  init := true, resp := { s.resp with ctrl := some .unit } }) ∧
  (∀ s : State, s.port = .prod ∨ s.port = .cons → exec .init s = .refused .wrongPort) ∧
  (∀ s : State, s.port = .ctrl → s.dataBusy = true → exec .init s = .refused .initConcurrent) ∧
  (∀ (s : State) (p : Port) (d : Byte), d ≠ 0x00#8 →
    issue p (0b00#2 ++ d) s = .refused .reservedEncoding) ∧
  (∀ s t : State, s.cfg.wellFormed = true → exec .init s = .next t →
    t.occ = 0 ∧ t.isEmpty = true ∧ t.isFull = false ∧ (∀ i, Memory.read t.stor i = none) ∧
    exec .init t = .next t) ∧
  ∀ (s : State) (t : Tick) (rest : List Tick) (w : Word) (i : Instr),
    s.cfg.wellFormed = true → s.inbox = t :: rest → t.ctrl = some (encode .init) →
    decode w = .command i → (prodWord t s = some w ∨ consWord t s = some w) →
    step s = .refused .initConcurrent

/-- 41_transfer.md R86: PUT's word, the byte stored or dropped, the status it leaves, and each of its
refusals. -/
def Obligations.PutStoresOrDrops : Prop :=
  (∀ b : Byte, encode (.put b) = 0x100#10 ||| b.setWidth 10) ∧
  (∀ (b : Byte) (s : State), s.port = .prod → s.init = true → s.occ = s.cfg.cap →
    exec (.put b) s = .next { s with resp := { s.resp with prod := some (.stored false) } }) ∧
  (∀ (b : Byte) (s : State), s.port = .prod → s.init = true → s.occ ≠ s.cfg.cap →
    s.wIdx < s.cfg.cap →
    exec (.put b) s = .next { s with
      stor := Memory.write s.stor s.wIdx b,
      wIdx := if s.wIdx + 1 = s.cfg.cap then 0 else s.wIdx + 1,
      wMir := if s.wIdx + 1 = s.cfg.cap then !s.wMir else s.wMir,
      resp := { s.resp with prod := some (.stored true) } }) ∧
  (∀ (b : Byte) (s t : State), s.Live → s.occ ≠ s.cfg.cap → exec (.put b) s = .next t →
    t.occ = s.occ + 1 ∧ t.isEmpty = false ∧ (t.isFull = true ↔ s.occ = s.cfg.cap - 1) ∧
    (t.isFull = true → t.wIdx = t.rIdx ∧ t.wMir ≠ t.rMir)) ∧
  (∀ (b : Byte) (s : State), s.port = .cons ∨ s.port = .ctrl → exec (.put b) s = .refused .wrongPort) ∧
  ∀ (b : Byte) (s : State), s.port = .prod → s.init = false → exec (.put b) s = .refused .notInitialised

/-- 41_transfer.md R87: GET's word, the oldest byte removed or no data, the status it leaves, its
refusals and its consistency fault. The value bits of the empty answer are the free value numbered
`draws` (log entry 7). -/
def Obligations.GetRemovesOldest : Prop :=
  encode .get = 0x200#10 ∧
  (∀ s : State, s.port = .cons → s.init = true → s.occ = 0 →
    exec .get s = .next { s with resp := { s.resp with cons := some (.noData s.draws) },
                                 draws := s.draws + 1 }) ∧
  (∀ (s : State) (b : Byte), s.port = .cons → s.init = true → s.occ ≠ 0 → s.rIdx < s.cfg.cap →
    Memory.read s.stor s.rIdx = some b →
    exec .get s = .next { s with
      rIdx := if s.rIdx + 1 = s.cfg.cap then 0 else s.rIdx + 1,
      rMir := if s.rIdx + 1 = s.cfg.cap then !s.rMir else s.rMir,
      resp := { s.resp with cons := some (.byte b) } }) ∧
  (∀ s : State, s.port = .cons → s.init = true → s.occ ≠ 0 → s.rIdx < s.cfg.cap →
    Memory.read s.stor s.rIdx = none → exec .get s = .fault .unwrittenCell) ∧
  (∀ (s : State) (r : Fault), s.Live → exec .get s ≠ .fault r) ∧
  (∀ s t : State, s.Live → s.occ ≠ 0 → exec .get s = .next t →
    t.occ = s.occ - 1 ∧ t.isFull = false ∧ (t.isEmpty = true ↔ s.occ = 1) ∧
    (t.isEmpty = true → t.rIdx = t.wIdx ∧ t.rMir = t.wMir)) ∧
  (∀ s : State, s.port = .prod ∨ s.port = .ctrl → exec .get s = .refused .wrongPort) ∧
  (∀ s : State, s.port = .cons → s.init = false → exec .get s = .refused .notInitialised) ∧
  ∀ (s : State) (p : Port) (d : Byte), d ≠ 0x00#8 →
    issue p (0b10#2 ++ d) s = .refused .reservedEncoding

/-- 42_query.md R100: LEN's word, its answer on every port, no other change, and its refusals. -/
def Obligations.LenReportsCount : Prop :=
  encode .len = 0x300#10 ∧
  (∀ s : State, s.init = true → s.port = .prod →
    exec .len s = .next { s with resp := { s.resp with prod := some (.count s.occ) } }) ∧
  (∀ s : State, s.init = true → s.port = .cons →
    exec .len s = .next { s with resp := { s.resp with cons := some (.count s.occ) } }) ∧
  (∀ s : State, s.init = true → s.port = .ctrl →
    exec .len s = .next { s with resp := { s.resp with ctrl := some (.count s.occ) } }) ∧
  (∀ (c : Config) (n : Nat), responseWord c (.count n) =
    BitVec.cons true (BitVec.ofNat (valueWidth c) n)) ∧
  (∀ s : State, s.init = false → exec .len s = .refused .notInitialised) ∧
  ∀ (s : State) (p : Port) (d : Byte), d ≠ 0x00#8 →
    issue p (0b11#2 ++ d) s = .refused .reservedEncoding

/-- The frame of PUT (10_state.md R27, 20_memory.md R40): where it stores, the one cell stored to is
`w_idx` of the state before; nothing else changes but the write pair and PROD's response. -/
def Obligations.PutChangesOnlyItsOwn : Prop :=
  ∀ (b : Byte) (s t : State), exec (.put b) s = .next t →
    (∀ a, a ≠ s.wIdx → Memory.read t.stor a = Memory.read s.stor a) ∧
    (s.occ = s.cfg.cap → t.stor = s.stor ∧ t.wIdx = s.wIdx ∧ t.wMir = s.wMir) ∧
    t.cfg = s.cfg ∧ t.rIdx = s.rIdx ∧ t.rMir = s.rMir ∧ t.init = s.init ∧ t.sig = s.sig ∧
    t.srcQ = s.srcQ ∧ t.producer = s.producer ∧ t.consumer = s.consumer ∧ t.takeRes = s.takeRes ∧
    t.stuck = s.stuck ∧ t.inbox = s.inbox ∧ t.port = s.port ∧ t.dataBusy = s.dataBusy ∧ t.draws = s.draws ∧
    t.resp.cons = s.resp.cons ∧ t.resp.ctrl = s.resp.ctrl

/-- The frame of GET (10_state.md R27, 41_transfer.md R87): no cell changes, the one it read keeps
its byte; nothing else changes but the read pair, CONS's response and the free values' counter. -/
def Obligations.GetChangesOnlyItsOwn : Prop :=
  ∀ s t : State, exec .get s = .next t →
    (∀ a, Memory.read t.stor a = Memory.read s.stor a) ∧
    (s.occ = 0 → t.rIdx = s.rIdx ∧ t.rMir = s.rMir) ∧
    t.cfg = s.cfg ∧ t.wIdx = s.wIdx ∧ t.wMir = s.wMir ∧ t.init = s.init ∧ t.sig = s.sig ∧
    t.srcQ = s.srcQ ∧ t.producer = s.producer ∧ t.consumer = s.consumer ∧ t.takeRes = s.takeRes ∧
    t.stuck = s.stuck ∧ t.inbox = s.inbox ∧ t.port = s.port ∧ t.dataBusy = s.dataBusy ∧
    t.resp.prod = s.resp.prod ∧ t.resp.ctrl = s.resp.ctrl

/-- The frames of INIT and LEN (20_memory.md R46): LEN changes no state but a response, INIT nothing
of the environment. -/
def Obligations.InitAndLenFrames : Prop :=
  (∀ s t : State, exec .len s = .next t → { t with resp := s.resp } = s) ∧
  ∀ s t : State, exec .init s = .next t →
    t.cfg = s.cfg ∧ t.sig = s.sig ∧ t.srcQ = s.srcQ ∧ t.producer = s.producer ∧
    t.consumer = s.consumer ∧ t.takeRes = s.takeRes ∧ t.stuck = s.stuck ∧ t.inbox = s.inbox ∧ t.port = s.port ∧
    t.dataBusy = s.dataBusy ∧ t.draws = s.draws ∧ t.resp.prod = s.resp.prod ∧ t.resp.cons = s.resp.cons

/-- 60_exceptions.md R110: in a live state every command completes on a port that accepts it, and
leaves a live state. -/
def Obligations.EveryCommandCompletes : Prop :=
  ∀ (i : Instr) (s : State), s.Live → portAccepts s.port i = true → (i = .init → s.dataBusy = false) →
    ∃ t, exec i s = .next t ∧ t.Live

/-- 30_encoding.md R67 with the port table of R60, written out. -/
def Obligations.WrongPortIsRefused : Prop :=
  (∀ (b : Byte) (p : Port), portAccepts p (.put b) = true ↔ p = .prod) ∧
  (∀ p : Port, portAccepts p .get = true ↔ p = .cons) ∧
  (∀ p : Port, portAccepts p .init = true ↔ p = .ctrl) ∧
  (∀ p : Port, portAccepts p .len = true) ∧
  ∀ (i : Instr) (s : State), portAccepts s.port i = false → exec i s = .refused .wrongPort

/-- 70_reset_and_hazards.md R151: before the first INIT every other command is refused, and INIT is
accepted. -/
def Obligations.BeforeInitOnlyInitRuns : Prop :=
  (∀ (i : Instr) (s : State), i ≠ .init → s.init = false → portAccepts s.port i = true →
    exec i s = .refused .notInitialised) ∧
  ∀ s : State, s.init = false → s.port = .ctrl → s.dataBusy = false →
    ∃ t, exec .init s = .next t ∧ t.init = true

/-- 30_encoding.md R69: every word is checked in the order reserved, wrong port, before INIT,
simultaneous INIT, and a word that passes all four is not refused. -/
def Obligations.ChecksRunInOrder : Prop :=
  ∀ (p : Port) (w : Word) (s : State),
    (∀ v, decode w = .reserved v → issue p w s = .refused .reservedEncoding) ∧
    ∀ i, decode w = .command i →
      (portAccepts p i = false → issue p w s = .refused .wrongPort) ∧
      (portAccepts p i = true → i ≠ .init → s.init = false → issue p w s = .refused .notInitialised) ∧
      (portAccepts p i = true → i = .init → s.dataBusy = true → issue p w s = .refused .initConcurrent) ∧
      (portAccepts p i = true → (i = .init ∨ s.init = true) → (i = .init → s.dataBusy = false) →
        ∀ r, issue p w s ≠ .refused r)

/-! ### The step -/

/-- A step runs the decoded command (30_encoding.md R60, R69): with one word presented on one port,
the step is `exec` of its command on that port, in the state with the tick taken and the outputs of
the step before gone; afterwards no port is being served. -/
def Obligations.StepRunsDecodedCommand : Prop :=
  ∀ (s : State) (p : Port) (w : Word) (i : Instr) (rest : List Tick),
    s.cfg.wellFormed = true → s.inbox = wordTick p w :: rest → decode w = .command i →
    step s =
      andThen (exec i { s with inbox := rest, takeRes := none, stuck := false,
                               resp := { prod := none, cons := none, ctrl := none },
                               dataBusy := decide (p ≠ .ctrl), draws := s.draws + 1, port := p })
        fun t => .next { t with port := .ctrl, dataBusy := false }

/-- The word placed by `withFetchWord` is the command of the next step, on its own port (the model's
choice, log entries 4 and 22; LEN is placed on CTRL). -/
def Obligations.PlacedCommandRunsNext : Prop :=
  ∀ (s : State) (i : Instr), s.cfg.wellFormed = true →
    decodeTableWord 16 (encode i).toNat = some i ∧
    step (s.withFetchWord 16 (encode i).toNat) =
      andThen (exec i { s with takeRes := none, stuck := false,
                               resp := { prod := none, cons := none, ctrl := none },
                               dataBusy := decide (homePort i ≠ .ctrl), draws := s.draws + 1,
                               port := homePort i })
        fun t => .next { t with port := .ctrl, dataBusy := false }

/-- With nothing presented the block and its environment keep their state (60_exceptions.md R136):
only the outputs of the step before are gone. That a step is taken at all is the model's choice (log
entry 4). -/
def Obligations.QuietStepKeepsState : Prop :=
  ∀ s : State, s.cfg.wellFormed = true → s.inbox = [] →
    step s = .next { s with takeRes := none, stuck := false,
                            resp := { prod := none, cons := none, ctrl := none },
                            port := .ctrl, dataBusy := false, draws := s.draws + 1 }

/-- 20_memory.md R48, R49, 30_encoding.md R68: the commands presented in one step, on all three ports
or on any of them, take effect one after another in the order of the tick, and every order of the
three ports is some tick's. That the order stands in the tick is log entry 5's. -/
def Obligations.EveryPortOrderIsAdmitted : Prop :=
  (∀ l : List Port, l.Perm [.prod, .cons, .ctrl] → ∃ o : Order, o.ports = l) ∧
  ∀ (s : State) (t : Tick) (rest : List Tick) (ip ic is : Option Instr) (p q r : Port),
    s.cfg.wellFormed = true → s.inbox = t :: rest →
    t.prod = ip.map (fun i => .word (encode i)) → t.cons = ic.map (fun i => .word (encode i)) →
    t.ctrl = is.map encode → is ≠ some .init → t.order.ports = [p, q, r] →
    let serve : Port → State → Result := fun x a =>
      match (match x with | .prod => ip | .cons => ic | .ctrl => is) with
      | some i => exec i (a.withPort x)
      | none => .next a
    step s =
      andThen (serve p (beginTick t { s with inbox := rest })) fun a =>
        andThen (serve q a) fun b =>
          andThen (serve r b) fun c => .next { c with port := .ctrl, dataBusy := false }

/-- 20_memory.md R49: with a buffer neither empty nor full, a PUT and a GET in one step give the same
state in either order. -/
def Obligations.OrdersAgreeAwayFromLimits : Prop :=
  ∀ (s : State) (b : Byte) (rest : List Tick), s.Live → s.isEmpty = false → s.isFull = false →
    let tick : Order → Tick := fun o =>
      { arrivals := [], prod := some (.word (encode (.put b))), cons := some (.word (encode .get)),
        ctrl := none, order := o }
    step { s with inbox := tick .pcs :: rest } = step { s with inbox := tick .cps :: rest } ∧
    ∃ u, step { s with inbox := tick .pcs :: rest } = .next u ∧ u.occ = s.occ

/-- 20_memory.md R49, 95_test_vectors.md §2.6: the two cases in which the orders of a PUT and a GET in
one step differ. On an empty buffer the GET returns the PUT's byte or none; on a full one the PUT is
dropped or stored, behind the bytes that are left. -/
def Obligations.OrdersDifferAtTheLimits : Prop :=
  ∀ (s : State) (b : Byte) (rest : List Tick), s.Live →
    let run : Order → Result := fun o =>
      step { s with inbox := { arrivals := [], prod := some (.word (encode (.put b))),
                               cons := some (.word (encode .get)), ctrl := none, order := o } :: rest }
    (s.isEmpty = true →
      (∃ u, run .pcs = .next u ∧ u.resp.prod = some (.stored true) ∧ u.resp.cons = some (.byte b) ∧
        u.contents = []) ∧
      ∃ u d, run .cps = .next u ∧ u.resp.cons = some (.noData d) ∧ u.resp.prod = some (.stored true) ∧
        u.contents = [b]) ∧
    (s.isFull = true →
      ∃ h rest', s.contents = h :: rest' ∧
        (∃ u, run .pcs = .next u ∧ u.resp.prod = some (.stored false) ∧ u.resp.cons = some (.byte h) ∧
          u.contents = rest') ∧
        ∃ u, run .cps = .next u ∧ u.resp.cons = some (.byte h) ∧ u.resp.prod = some (.stored true) ∧
          u.contents = rest' ++ [b])

/-! ### Status, widths, words -/

/-- 10_state.md R29: the three cases of the occupied count, its range, and that the mirrors are not
read where the indices differ. -/
def Obligations.OccupiedCountCases : Prop :=
  ∀ s : State,
    (s.rIdx = s.wIdx → s.rMir = s.wMir → s.occ = 0) ∧
    (s.rIdx = s.wIdx → s.rMir ≠ s.wMir → s.occ = s.cfg.cap) ∧
    (s.rIdx < s.wIdx → s.occ = s.wIdx - s.rIdx) ∧
    (s.wIdx < s.rIdx → s.occ = s.cfg.cap - (s.rIdx - s.wIdx)) ∧
    (s.indicesInRange → s.occ ≤ s.cfg.cap) ∧
    (s.indicesInRange → s.wIdx < s.rIdx → 1 ≤ s.occ ∧ s.occ ≤ s.cfg.cap - 1)

/-- 10_state.md R30, R31: empty and full by indices and mirrors; with one cell the block is always
one of the two. -/
def Obligations.EmptyAndFullByMirrors : Prop :=
  ∀ s : State, s.indicesInRange →
    (s.isEmpty = true ↔ s.occ = 0) ∧ (s.isFull = true ↔ s.occ = s.cfg.cap) ∧
    (s.isEmpty = true ↔ s.rIdx = s.wIdx ∧ s.rMir = s.wMir) ∧
    (s.isFull = true ↔ s.rIdx = s.wIdx ∧ s.rMir ≠ s.wMir) ∧
    (s.cfg.cap = 1 → s.isEmpty = true ∨ s.isFull = true)

/-- 42_query.md R101, R102: the outputs follow the state whenever `init` holds, also at the end of a
step, and are never both 1. -/
def Obligations.StatusOutputsFollowState : Prop :=
  (∀ s : State, s.init = true → s.emptyOut = decide (s.occ = 0) ∧ s.fullOut = decide (s.occ = s.cfg.cap)) ∧
  (∀ s : State, s.Live → ¬ (s.emptyOut = true ∧ s.fullOut = true)) ∧
  ∀ s t : State, s.Inv → step s = .next t → t.init = true → ¬ (t.emptyOut = true ∧ t.fullOut = true)

/-- 00_scope.md R7: `clog2(n)` is the least `k` with `2^k >= n`, and the three widths. -/
def Obligations.WidthsAreLeast : Prop :=
  (∀ n, n ≤ 2 ^ clog2 n) ∧ (∀ n k, n ≤ 2 ^ k → clog2 n ≤ k) ∧
  ∀ c : Config, indexWidth c = clog2 c.cap ∧ countWidth c = clog2 (c.cap + 1) ∧
    valueWidth c = max 8 (clog2 (c.cap + 1)) ∧ (c.cap = 1 → indexWidth c = 0)

/-- 30_encoding.md R64: the response word has `ok` at bit `VW` and the value below it, and no value
of any response is cut: a byte and a count up to `C` read back whole. INIT's `ok` is 1, PUT's is
whether the byte was stored, GET's is 1 with a byte and 0 without one, LEN's is 1. -/
def Obligations.ResponseWordLayout : Prop :=
  (∀ (c : Config) (r : Response), (responseWord c r).getLsbD (valueWidth c) = r.ok ∧
    (responseWord c r).setWidth (valueWidth c) = r.value (valueWidth c)) ∧
  (∀ c : Config, responseWord c .unit = BitVec.cons true 0 ∧
    ∀ ok, responseWord c (.stored ok) = BitVec.cons ok 0) ∧
  (∀ (c : Config) (b : Byte), (Response.value (valueWidth c) (.byte b)).toNat = b.toNat ∧
    (Response.byte b).ok = true) ∧
  (∀ d : Nat, (Response.noData d).ok = false) ∧
  ∀ (c : Config) (n : Nat), n ≤ c.cap → (Response.value (valueWidth c) (.count n)).toNat = n ∧
    (Response.count n).ok = true

/-- 10_state.md R35: the snapshot view has the mirror at bit `IW` and the index below it. -/
def Obligations.RegisterViewLayout : Prop :=
  ∀ s : State, s.indicesInRange →
    s.readView.getLsbD (indexWidth s.cfg) = s.rMir ∧
    (s.readView.setWidth (indexWidth s.cfg)).toNat = s.rIdx ∧
    s.writeView.getLsbD (indexWidth s.cfg) = s.wMir ∧
    (s.writeView.setWidth (indexWidth s.cfg)).toNat = s.wIdx

/-- 41_transfer.md R85: the advance of an index and its mirror; with one cell every advance wraps. -/
def Obligations.AdvanceWrapsAtCapacity : Prop :=
  ∀ (cap i : Nat) (m : Bool), i < cap →
    advance cap i m = (if i + 1 = cap then (0, !m) else (i + 1, m)) ∧
    (advance cap i m).1 < cap ∧ (cap = 1 → advance cap i m = (0, !m))

/-- 10_state.md R26: after `n` advances from INIT's pair the index is `n mod C` and the mirror is the
parity of the number of wraps, `n / C`. -/
def Obligations.MirrorIsLapParity : Prop :=
  ∀ cap n : Nat, 1 ≤ cap → advanceTimes cap n (0, false) = (n % cap, decide (n / cap % 2 = 1))

/-! ### Storage -/

/-- 20_memory.md R40: a cell holds the byte written to it, and no other cell changes. -/
def Obligations.CellReadsLastWrite : Prop :=
  ∀ (s : State) (i : Nat) (b : Byte), i < s.cfg.cap →
    ∃ t, writeCell s i b = .next t ∧ readCell t i = .next b ∧
      (∀ j, j ≠ i → readCell t j = readCell s j) ∧ { t with stor := s.stor } = s

/-! ### Invariants -/

/-- 70_reset_and_hazards.md R150, R153: power-on in any configuration of which a block exists, with
any values of the four registers and any pending bytes, meets the invariant, and `init` is false, the
Signal at 0, no routine running, every cell unwritten. `State.reset` is one such state; its register
values and its capacity are the model's choice (log entries 1, 2, 3). -/
def Obligations.PowerOnMeetsInvariant : Prop :=
  (∀ (c : Config) (i j : Nat) (m n : Bool) (q : List Byte), c.wellFormed = true →
    (State.powerOn c i m j n q).Inv ∧ (State.powerOn c i m j n q).init = false ∧
    (State.powerOn c i m j n q).sig = 0 ∧ (State.powerOn c i m j n q).producer = .idle ∧
    (State.powerOn c i m j n q).consumer = .idle ∧ (State.powerOn c i m j n q).srcQ = q ∧
    ∀ a, Memory.read (State.powerOn c i m j n q).stor a = none) ∧
  State.reset = State.powerOn Config.atReset 0 false 0 false [] ∧ State.reset.Inv

/-- 10_state.md R32: every step, whatever is presented, keeps the invariant. -/
def Obligations.StepKeepsInvariant : Prop :=
  ∀ s t : State, s.Inv → step s = .next t → t.Inv

/-- 10_state.md R32: what the invariant says of the occupied count. -/
def Obligations.InvariantGivesCount : Prop :=
  ∀ s : State, s.Live →
    (s.wMir = s.rMir → s.occ = s.wIdx - s.rIdx) ∧
    (s.wMir ≠ s.rMir → s.occ = s.cfg.cap - s.rIdx + s.wIdx) ∧
    s.occ ≤ s.cfg.cap ∧ s.contents.length = s.occ

/-- 60_exceptions.md R112: from a state that meets the invariant the only fault a step can end in is
the Signal's overflow, and only where its bound is finite and reached in the step. -/
def Obligations.OnlySignalOverflowFaults : Prop :=
  ∀ (s : State) (r : Fault), s.Inv → step s = .fault r → r = .signalOverflow ∧ s.cfg.sigMax ≠ none

/-- 00_scope.md R6, 10_state.md R28: no step changes the configuration or clears `init`. -/
def Obligations.ConfigurationAndInitPersist : Prop :=
  ∀ s t : State, step s = .next t → t.cfg = s.cfg ∧ (s.init = true → t.init = true)

/-- 10_state.md R27: in a step without INIT, the storage and the write pair change only where a word
stands on PROD, and the read pair only where one stands on CONS. -/
def Obligations.SidesOwnTheirFields : Prop :=
  ∀ (s t : State), step s = .next t → (nextTick s).noInit →
    (prodWord (nextTick s) s = none → t.stor = s.stor ∧ t.wIdx = s.wIdx ∧ t.wMir = s.wMir) ∧
    (consWord (nextTick s) s = none → t.rIdx = s.rIdx ∧ t.rMir = s.rMir)

/-- 70_reset_and_hazards.md R150, R151: what the four registers hold before INIT is never seen: two
states that differ only in them step alike, and alike in all once INIT has run. -/
def Obligations.PowerOnRegistersAreUnseen : Prop :=
  ∀ (s : State) (i j : Nat) (m n : Bool), s.init = false →
    (∀ r, step s = .refused r ↔ step (s.withRegisters i m j n) = .refused r) ∧
    (∀ r, step s = .fault r ↔ step (s.withRegisters i m j n) = .fault r) ∧
    ∀ t, step s = .next t →
      step (s.withRegisters i m j n) = .next (if t.init then t else t.withRegisters i m j n)

/-! ### The queue behind the ring -/

/-- 20_memory.md R51, 41_transfer.md R88: from a live state, any commands on their ports answer what
a bounded first-in first-out queue with drop on full answers, and leave what it leaves. -/
def Obligations.BlockImplementsQueue : Prop :=
  ∀ (is : List Instr) (s : State), s.Live → s.dataBusy = false →
    ∃ t answers, runCommands is s = .next (t, answers) ∧ t.Live ∧
      answers = (queueRun s.cfg.cap is s.contents).2.map some ∧
      t.contents = (queueRun s.cfg.cap is s.contents).1

/-- 41_transfer.md R88, laws 3 and 4: from an empty live state, PUTs of `bs` succeed for the first
`C` and fail for the rest, and GETs then return the first `C` bytes in order, then no data. -/
def Obligations.OverflowKeepsTheFirst : Prop :=
  ∀ (bs : List Byte) (s : State), s.Live → s.isEmpty = true →
    ∃ t, runCommands (bs.map Instr.put ++ List.replicate (min bs.length s.cfg.cap + 1) .get) s =
      .next (t, (List.range bs.length).map (fun k => some (.stored (decide (k < s.cfg.cap)))) ++
        (bs.take s.cfg.cap).map (fun b => some (.byte (some b))) ++ [some (.byte none)])

/-- 20_memory.md R51: over any run without INIT, whatever else is presented, the bytes GET returns
are the bytes the buffer held and then those of the successful PUTs, in order; what is left is what
the buffer holds. -/
def Obligations.BytesLeaveInOrder : Prop :=
  ∀ (n : Nat) (s t : State) (l : Log), s.Live → (∀ x ∈ s.inbox, x.noInit) → logRun n s = .next (t, l) →
    s.contents ++ l.accepted = l.returned ++ t.contents

/-- 60_exceptions.md R131: where every PUT is the producer routine's and no INIT comes, the bytes
put, accepted or dropped, are the arrivals in order, and the bytes returned are the accepted ones in
order. -/
def Obligations.ArrivalsAreDeliveredInOrder : Prop :=
  ∀ (n : Nat) (s t : State) (l : Log), s.Live → (∀ x ∈ s.inbox, x.noInit ∧ x.noDirectPut) →
    logRun n s = .next (t, l) →
    s.producer.inHand ++ s.srcQ ++ l.arrived = l.offered ++ t.producer.inHand ++ t.srcQ ∧
    s.contents ++ l.accepted = l.returned ++ t.contents

/-! ### The environment -/

/-- 60_exceptions.md R124: `release` adds one permit and changes nothing else, faults at a finite
bound, and enables a `take` that waits. -/
def Obligations.ReleaseAddsOnePermit : Prop :=
  ∀ s : State,
    (s.cfg.sigMax = none → release s = .next { s with sig := s.sig + 1 }) ∧
    (∀ m, s.cfg.sigMax = some m → s.sig ≠ m → release s = .next { s with sig := s.sig + 1 }) ∧
    (∀ m, s.cfg.sigMax = some m → s.sig = m → release s = .fault .signalOverflow) ∧
    ∀ (t : State) (x : Timeout) (e : Bool), release s = .next t →
      takeAttempt x true e t.sig = some .ok

/-- 60_exceptions.md R125, for a `take` outside `read_byte_blocking`: with a permit it returns Ok at
once and takes one; without one it blocks, whatever its timeout; a blocked one returns Ok with a
permit, times out with a finite timeout that is chosen to expire, the count unchanged, and else stays
blocked; with no timeout its step is noted as Stuck (00_scope.md R10). Two things are the model's
choice: the state `bareTake` of such a `take`, from which the consumer returns to `idle` (log entry
16), and that a Stuck step answers the state that stays, with a mark (log entry 17). -/
def Obligations.TakeTakesOrBlocks : Prop :=
  ∀ (s : State) (x : Timeout),
    (s.consumer.busy = false → 0 < s.sig →
      consumerMove (.take x) s = .next { s with sig := s.sig - 1, takeRes := some .ok, consumer := .idle }) ∧
    (s.consumer.busy = false → s.sig = 0 →
      consumerMove (.take x) s = .next { s with takeRes := none, consumer := .bareTake x }) ∧
    (∀ e, s.consumer = .bareTake x → 0 < s.sig →
      consumerMove (.run e) s = .next { s with sig := s.sig - 1, takeRes := some .ok, consumer := .idle }) ∧
    (s.consumer = .bareTake .finite → s.sig = 0 →
      consumerMove (.run true) s = .next { s with takeRes := some .timedOut, consumer := .idle }) ∧
    (s.consumer = .bareTake .finite → s.sig = 0 →
      consumerMove (.run false) s = .next { s with takeRes := none }) ∧
    (∀ e, s.consumer = .bareTake .forever → s.sig = 0 →
      consumerMove (.run e) s = .next { s with takeRes := none, stuck := true })

/-- 60_exceptions.md R121: the steps of the producer routine, one for each place it can stand. -/
def Obligations.ProducerRoutineSteps : Prop :=
  ∀ s : State,
    (s.producer = .testing → s.srcQ ≠ [] →
      producerMove .run s = .next { s with producer := .reading }) ∧
    (s.producer = .testing → s.srcQ = [] →
      producerMove .run s = .next { s with producer := .releasing }) ∧
    (∀ b q, s.producer = .reading → s.srcQ = b :: q →
      producerMove .run s = .next { s with srcQ := q, producer := .putting b }) ∧
    (∀ b, s.producer = .putting b →
      producerMove .run s = andThen (exec (.put b) (s.withPort .prod)) fun t =>
        .next { t with producer := .testing }) ∧
    (s.producer = .releasing →
      producerMove .run s = andThen (release s) fun t => .next { t with producer := .idle })

/-- 60_exceptions.md R120, R121: a drain moves every pending byte, in order, as far as there is room,
drops the rest, and releases exactly once, in three steps a byte and two more. -/
def Obligations.DrainMovesEveryByteReleasesOnce : Prop :=
  ∀ s : State, s.Live → s.producer = .idle → s.cfg.sigMax ≠ some s.sig →
    ∃ t, producerRuns (3 * s.srcQ.length + 2) (interrupt s) = .next t ∧
      t.producer = .idle ∧ t.srcQ = [] ∧ t.sig = s.sig + 1 ∧
      t.contents = s.contents ++ s.srcQ.take (s.cfg.cap - s.occ)

/-- 60_exceptions.md R116, R120, R122: the interrupt starts an idle routine, also with nothing
pending, and does not re-enter a running one; its whole effect is that start. That an interrupt of a
running routine is skipped and not remembered (log entry 15), and that it starts the routine before
INIT too (log entry 27), is the model's choice. -/
def Obligations.InterruptStartsIdleRoutineOnly : Prop :=
  ∀ s : State,
    (s.producer = .idle → producerMove .interrupt s = .next { s with producer := .testing }) ∧
    (s.producer ≠ .idle → producerMove .interrupt s = .next s)

/-- 60_exceptions.md R120: in every infinite run whose interrupts are fair, while bytes stay available
the producer routine is running sooner or later. -/
def Obligations.FairInterruptsStartTheRoutine : Prop :=
  ∀ (ticks : Nat → Tick) (states : Nat → State), IsRun ticks states → interruptFair ticks states →
    ∀ n, (∀ m ≥ n, (states m).srcQ ≠ []) → ∃ m ≥ n, (states m).producer ≠ .idle

/-- 60_exceptions.md R118: `take` from interrupt context is refused, whatever the state, also as a
step. -/
def Obligations.TakeInInterruptIsRefused : Prop :=
  (∀ (s : State) (x : Timeout), producerMove (.take x) s = .refused .takeInInterrupt) ∧
  ∀ (s : State) (x : Timeout) (rest : List Tick), s.cfg.wellFormed = true →
    s.inbox = { Tick.quiet with prod := some (.take x) } :: rest → step s = .refused .takeInInterrupt

/-- 60_exceptions.md R126, R127: the consumer's state machine in a live state: a call starts at
WAIT_FOR_DATA, its GET leads to RETURN with the byte or to BLOCKED_ON_SIGNAL, and `take` from there
to WAIT_FOR_DATA on Ok and to RETURN on a timeout; without a permit and without an expiry it stays in
BLOCKED_ON_SIGNAL, and with no timeout that step is noted as Stuck (00_scope.md R10). The steps and
the mark for a `take` that has begun are log entry 16's, and that a Stuck step answers the state that
stays, with a mark, is log entry 17's: the model's choice. -/
def Obligations.ConsumerRoutineSteps : Prop :=
  ∀ (s : State) (x : Timeout) (e : Bool), s.Live →
    (s.consumer.busy = false →
      consumerMove (.call x) s = .next { s with consumer := .waitForData x }) ∧
    (s.consumer = .waitForData x → s.isEmpty = true →
      ∃ t, consumerMove (.run e) s = .next t ∧ t.consumer = .blockedOnSignal x false ∧
        t.contents = s.contents ∧ t.sig = s.sig) ∧
    (s.consumer = .waitForData x → s.isEmpty = false →
      ∃ t b, consumerMove (.run e) s = .next t ∧ t.consumer = .returned (.byte b) ∧
        s.contents = b :: t.contents ∧ t.sig = s.sig) ∧
    (∀ w, s.consumer = .blockedOnSignal x w → 0 < s.sig →
      consumerMove (.run e) s =
        .next { s with sig := s.sig - 1, takeRes := some .ok, consumer := .waitForData x }) ∧
    (s.consumer = .blockedOnSignal .finite true → s.sig = 0 →
      consumerMove (.run true) s =
        .next { s with takeRes := some .timedOut, consumer := .returned .timedOut }) ∧
    (s.consumer = .blockedOnSignal x false → s.sig = 0 →
      consumerMove (.run e) s = .next { s with takeRes := none, consumer := .blockedOnSignal x true }) ∧
    (s.consumer = .blockedOnSignal .finite true → s.sig = 0 →
      consumerMove (.run false) s = .next { s with takeRes := none }) ∧
    (s.consumer = .blockedOnSignal .forever true → s.sig = 0 →
      consumerMove (.run e) s = .next { s with takeRes := none, stuck := true })

/-- 60_exceptions.md R128: no step loses a wake-up, where every PUT is the routine's: a consumer
that is blocked while the buffer holds data has a permit, or the routine is still to release. -/
def Obligations.NoWakeUpIsLost : Prop :=
  ∀ s t : State, s.wakeOwed → (nextTick s).noDirectPut → step s = .next t → t.wakeOwed

/-- 60_exceptions.md R125, 00_scope.md R10: a consumer blocked for ever without a permit is stuck until
a `release`: whatever it is to do, the step is Stuck, it stays where it is, and nothing else of the
machine changes; a `release` ends that, and its next step returns Ok. That a Stuck step answers the
state that stays is the model's choice (log entry 17), as the blocked `take` outside a call is (log
entry 16). -/
def Obligations.StuckConsumerWaitsForRelease : Prop :=
  (∀ (s : State) (e : Bool), s.consumerStuck = true →
    consumerMove (.run e) s = .next { s with takeRes := none, stuck := true } ∧
    ∀ t, release s = .next t → t.consumerStuck = false ∧
      ∃ u, consumerMove (.run e) t = .next u ∧ u.takeRes = some .ok ∧ u.sig = s.sig ∧ u.stuck = s.stuck) ∧
  ∀ (s : State) (m : ConsMove) (arr : List Byte) (o : Order) (rest : List Tick),
    s.cfg.wellFormed = true → s.consumerStuck = true → (∀ w, m ≠ .word w) →
    s.inbox = { arrivals := arr, prod := none, cons := some m, ctrl := none, order := o } :: rest →
    stepOutcome s = .stuck { s with srcQ := s.srcQ ++ arr, takeRes := none, stuck := true,
                                    resp := { prod := none, cons := none, ctrl := none },
                                    inbox := rest, port := .ctrl, dataBusy := false, draws := s.draws + 1 }

/-- 00_scope.md R10: a step has one of four outcomes. It is a fault or a refusal where `step` is; else
it is Stuck exactly where `step`'s next state says so. It is Stuck only where the consumer is stuck and
a move of its own stands in the tick; and where both hold, it is Stuck unless a `release` came first in
the same step, whose permit is still there or was taken. The mark in the next state is the model's
form of the fourth outcome (log entry 17). -/
def Obligations.StepHasOneOfFourOutcomes : Prop :=
  ∀ s : State,
    (∀ t, stepOutcome s = .next t ↔ step s = .next t ∧ t.stuck = false) ∧
    (∀ t, stepOutcome s = .stuck t ↔ step s = .next t ∧ t.stuck = true) ∧
    (∀ r, stepOutcome s = .fault r ↔ step s = .fault r) ∧
    (∀ r, stepOutcome s = .refused r ↔ step s = .refused r) ∧
    (∀ t, stepOutcome s = .stuck t →
      s.consumerStuck = true ∧ ∃ m, (nextTick s).cons = some m ∧ ∀ w, m ≠ .word w) ∧
    ∀ t m, stepOutcome s = .next t → s.consumerStuck = true → (nextTick s).cons = some m →
      (∀ w, m ≠ .word w) → 0 < t.sig ∨ t.takeRes = some .ok

/-- An agent's move is the whole step where nothing else is presented (60_exceptions.md R117): the
statements about moves reach a run through this one. -/
def Obligations.StepRunsAgentMove : Prop :=
  ∀ (s : State) (rest : List Tick) (arr : List Byte) (o : Order), s.cfg.wellFormed = true →
    (∀ m, s.inbox = { arrivals := arr, prod := some m, cons := none, ctrl := none, order := o } :: rest →
      step s = andThen (producerMove m (beginTick (nextTick s) { s with inbox := rest })) fun t =>
        .next { t with port := .ctrl, dataBusy := false }) ∧
    ∀ m, s.inbox = { arrivals := arr, prod := none, cons := some m, ctrl := none, order := o } :: rest →
      step s = andThen (consumerMove m (beginTick (nextTick s) { s with inbox := rest })) fun t =>
        .next { t with port := .ctrl, dataBusy := false }

/-! ### Configuration -/

/-- 00_scope.md R6, 60_exceptions.md R130: no block is built with a capacity of 0 or less or with more
than one agent on a port. The model's choices (log entry 14): the order of the checks, so that a bad
capacity is named whatever else is wrong; the refusals of a capacity above C_MAX and of a Signal bound
of 0; and that `step` refuses a state of such a configuration, by the same name and whatever is
presented. That a port without an agent is no ground for a refusal is log entry 26's. -/
def Obligations.BadConfigurationsAreRefused : Prop :=
  (∀ (c : Int) (cm sm : Option Nat) (np nc i j : Nat) (m n : Bool) (q : List Byte), c ≤ 0 →
    configure c cm sm np nc i m j n q = .refused .badCapacity) ∧
  (∀ (c : Int) (np nc i j : Nat) (m n : Bool) (q : List Byte), 1 ≤ c → (1 < np ∨ 1 < nc) →
    configure c none none np nc i m j n q = .refused .tooManyAgents) ∧
  (∀ (c : Int) (np nc i j : Nat) (m n : Bool) (q : List Byte), 1 ≤ c → np ≤ 1 → nc ≤ 1 →
    configure c none none np nc i m j n q = .next (State.powerOn
      { cap := c.toNat, capMax := none, sigMax := none, producers := np, consumers := nc } i m j n q)) ∧
  (∀ s : State, s.cfg.cap = 0 → step s = .refused .badCapacity) ∧
  (∀ (s : State) (m : Nat), 1 ≤ s.cfg.cap → s.cfg.capMax = some m → m < s.cfg.cap →
    step s = .refused .capacityAboveMax) ∧
  (∀ s : State, s.cfg.capOk = true → s.cfg.capMaxOk = true → s.cfg.sigMax = some 0 →
    step s = .refused .badSignalMax) ∧
  ∀ s : State, s.cfg.capOk = true → s.cfg.capMaxOk = true → s.cfg.sigMaxOk = true →
    (1 < s.cfg.producers ∨ 1 < s.cfg.consumers) → step s = .refused .tooManyAgents

/-! ### The split machine -/

/-- 20_memory.md R50: every stage of a split PUT or GET keeps what the commands under way rely on,
and none faults. -/
def Obligations.SplitStagesKeepInvariant : Prop :=
  ∀ (m : SplitMove) (x : SplitState), x.Inv → ∃ y, splitStep m x = .next y ∧ y.Inv

/-- 20_memory.md R50: the atomic model is a correct abstraction of a split implementation that keeps
the order: the stage that completes a command leaves exactly what the atomic command leaves at that
moment, response included, and every other stage changes nothing that a command can see. -/
def Obligations.SplitCommandsAreAtomic : Prop :=
  ∀ (m : SplitMove) (x y : SplitState), x.Inv → splitStep m x = .next y →
    match splitCompletes m x with
    | some i => exec i (x.st.withPort m.port) = .next y.st
    | none => y.st.registers = x.st.registers ∧ y.st.contents = x.st.contents ∧ y.st.resp = x.st.resp

/-! ### Assembler -/

/-- 30_encoding.md R71, R72: PUTS is one PUT a character, in order, on PROD; GETN is `n` GETs on
CONS, each `0x200`; the example of R71. -/
def Obligations.PseudoInstructionsExpand : Prop :=
  (∀ text : List Byte, expandCommand .prod (.puts text) = some (text.map Instr.put)) ∧
  (∀ n : Nat, expandCommand .cons (.getn n) = some (List.replicate n .get)) ∧ encode .get = 0x200#10 ∧
  (assembleLine ['P', 'R', 'O', 'D', ':', ' ', 'P', 'U', 'T', 'S', ' ', '"', 'H', 'E', 'L', 'L', 'O', '"']).map
      (fun l => l.map fun x => (x.1, encode x.2)) =
    some [(.prod, 0x148#10), (.prod, 0x145#10), (.prod, 0x14C#10), (.prod, 0x14C#10), (.prod, 0x14F#10)]

/-- 30_encoding.md R70: a command written in the assembler's form reads back as that command on that
port, a PUT with any byte. -/
def Obligations.AssemblerReadsItsOwnForm : Prop :=
  ∀ (p : Port) (i : Instr), assembleLine (lineText p i) = some [(p, i)]
end

