-- ==== Sys2Proof/Laws/Memory.lean ====
section
/-! SUPPORT. The storage keeps its canonical form, and a read sees the last write. -/

namespace Sys2Proof.Machine

open Sys2Proof

/-- A write gives its cell the byte written. -/
@[simp] theorem memory_read_write_same (m : Memory) (a : Nat) (b : Byte) :
    Memory.read (Memory.write m a b) a = some b := by
  induction m with
  | nil => simp [Memory.write, Memory.read]
  | cons c m ih =>
    obtain ⟨x, v⟩ := c
    simp only [Memory.write]
    split_ifs with h1 h2
    · simp [Memory.read]
    · simp [Memory.read]
    · simp [Memory.read, h2, ih]

/-- A write leaves every other cell as it was. -/
theorem memory_read_write_other (m : Memory) {a i : Nat} (b : Byte) (h : i ≠ a) :
    Memory.read (Memory.write m a b) i = Memory.read m i := by
  induction m with
  | nil => simp [Memory.write, Memory.read, h]
  | cons c m ih =>
    obtain ⟨x, v⟩ := c
    simp only [Memory.write]
    split_ifs with h1 h2
    · simp [Memory.read, h]
    · subst h2; simp [Memory.read, h]
    · simp [Memory.read, ih]

/-- What a write lists: the cell written, or a cell that was listed. -/
theorem memory_mem_write {m : Memory} {a : Nat} {b : Byte} {c : Host.Cell}
    (h : c ∈ Memory.write m a b) : c = (a, b) ∨ c ∈ m := by
  induction m with
  | nil => simpa [Memory.write] using h
  | cons d m ih =>
    obtain ⟨x, v⟩ := d
    simp only [Memory.write] at h
    split_ifs at h with h1 h2
    · simpa using h
    · rcases List.mem_cons.1 h with h | h
      · exact .inl h
      · exact .inr (List.mem_cons_of_mem _ h)
    · rcases List.mem_cons.1 h with h | h
      · exact .inr (h ▸ List.mem_cons_self)
      · exact (ih h).imp id (List.mem_cons_of_mem _)

/-- A write keeps the canonical form. -/
theorem memory_write_wf {m : Memory} (a : Nat) (b : Byte) (h : Memory.wf m) :
    Memory.wf (Memory.write m a b) := by
  induction m with
  | nil => exact List.pairwise_singleton _ _
  | cons c m ih =>
    obtain ⟨x, v⟩ := c
    obtain ⟨hx, hm⟩ := List.pairwise_cons.1 h
    simp only [Memory.write]
    split_ifs with h1 h2
    · refine List.pairwise_cons.2 ⟨fun y hy => ?_, h⟩
      rcases List.mem_cons.1 hy with rfl | hy
      · exact h1
      · exact h1.trans (hx y hy)
    · subst h2
      exact List.pairwise_cons.2 ⟨hx, hm⟩
    · refine List.pairwise_cons.2 ⟨fun y hy => ?_, ih hm⟩
      rcases memory_mem_write hy with rfl | hy
      · exact lt_of_le_of_ne (not_lt.1 h1) (Ne.symm h2)
      · exact hx y hy

/-- Nothing is written in the empty storage. -/
@[simp] theorem memory_read_nil (a : Nat) : Memory.read [] a = none := rfl

/-- The empty storage is canonical; INIT and power-on leave it. -/
theorem memory_nil_wf : Memory.wf [] := List.Pairwise.nil

/-- Power-on's storage is canonical. -/
theorem reset_stor_wf : Memory.wf State.reset.stor := memory_nil_wf

end Sys2Proof.Machine
end

