-- ==== Sys2Proof/Laws/State.lean ====
section
/-! SUPPORT. One lemma per field per update of the state, each true by `rfl`, and what the updates
leave of the status derived from the ring. -/

namespace Sys2Proof.Machine

open Sys2Proof

variable (s : State)

/-! ### withPort -/

@[simp] theorem withPort_cfg (p : Port) : (s.withPort p).cfg = s.cfg := rfl
@[simp] theorem withPort_stor (p : Port) : (s.withPort p).stor = s.stor := rfl
@[simp] theorem withPort_rIdx (p : Port) : (s.withPort p).rIdx = s.rIdx := rfl
@[simp] theorem withPort_rMir (p : Port) : (s.withPort p).rMir = s.rMir := rfl
@[simp] theorem withPort_wIdx (p : Port) : (s.withPort p).wIdx = s.wIdx := rfl
@[simp] theorem withPort_wMir (p : Port) : (s.withPort p).wMir = s.wMir := rfl
@[simp] theorem withPort_init (p : Port) : (s.withPort p).init = s.init := rfl
@[simp] theorem withPort_sig (p : Port) : (s.withPort p).sig = s.sig := rfl
@[simp] theorem withPort_srcQ (p : Port) : (s.withPort p).srcQ = s.srcQ := rfl
@[simp] theorem withPort_producer (p : Port) : (s.withPort p).producer = s.producer := rfl
@[simp] theorem withPort_consumer (p : Port) : (s.withPort p).consumer = s.consumer := rfl
@[simp] theorem withPort_takeRes (p : Port) : (s.withPort p).takeRes = s.takeRes := rfl
@[simp] theorem withPort_stuck (p : Port) : (s.withPort p).stuck = s.stuck := rfl
@[simp] theorem withPort_resp (p : Port) : (s.withPort p).resp = s.resp := rfl
@[simp] theorem withPort_inbox (p : Port) : (s.withPort p).inbox = s.inbox := rfl
@[simp] theorem withPort_port (p : Port) : (s.withPort p).port = p := rfl
@[simp] theorem withPort_dataBusy (p : Port) : (s.withPort p).dataBusy = s.dataBusy := rfl
@[simp] theorem withPort_draws (p : Port) : (s.withPort p).draws = s.draws := rfl
@[simp] theorem withPort_occ (p : Port) : (s.withPort p).occ = s.occ := rfl
@[simp] theorem withPort_isEmpty (p : Port) : (s.withPort p).isEmpty = s.isEmpty := rfl
@[simp] theorem withPort_isFull (p : Port) : (s.withPort p).isFull = s.isFull := rfl
@[simp] theorem withPort_contents (p : Port) : (s.withPort p).contents = s.contents := rfl

/-! ### respond -/

@[simp] theorem respond_cfg (r : Response) : (s.respond r).cfg = s.cfg := rfl
@[simp] theorem respond_stor (r : Response) : (s.respond r).stor = s.stor := rfl
@[simp] theorem respond_rIdx (r : Response) : (s.respond r).rIdx = s.rIdx := rfl
@[simp] theorem respond_rMir (r : Response) : (s.respond r).rMir = s.rMir := rfl
@[simp] theorem respond_wIdx (r : Response) : (s.respond r).wIdx = s.wIdx := rfl
@[simp] theorem respond_wMir (r : Response) : (s.respond r).wMir = s.wMir := rfl
@[simp] theorem respond_init (r : Response) : (s.respond r).init = s.init := rfl
@[simp] theorem respond_sig (r : Response) : (s.respond r).sig = s.sig := rfl
@[simp] theorem respond_srcQ (r : Response) : (s.respond r).srcQ = s.srcQ := rfl
@[simp] theorem respond_producer (r : Response) : (s.respond r).producer = s.producer := rfl
@[simp] theorem respond_consumer (r : Response) : (s.respond r).consumer = s.consumer := rfl
@[simp] theorem respond_takeRes (r : Response) : (s.respond r).takeRes = s.takeRes := rfl
@[simp] theorem respond_stuck (r : Response) : (s.respond r).stuck = s.stuck := rfl
@[simp] theorem respond_resp (r : Response) : (s.respond r).resp = s.resp.put s.port r := rfl
@[simp] theorem respond_inbox (r : Response) : (s.respond r).inbox = s.inbox := rfl
@[simp] theorem respond_port (r : Response) : (s.respond r).port = s.port := rfl
@[simp] theorem respond_dataBusy (r : Response) : (s.respond r).dataBusy = s.dataBusy := rfl
@[simp] theorem respond_draws (r : Response) : (s.respond r).draws = s.draws := rfl
@[simp] theorem respond_occ (r : Response) : (s.respond r).occ = s.occ := rfl
@[simp] theorem respond_isEmpty (r : Response) : (s.respond r).isEmpty = s.isEmpty := rfl
@[simp] theorem respond_isFull (r : Response) : (s.respond r).isFull = s.isFull := rfl
@[simp] theorem respond_contents (r : Response) : (s.respond r).contents = s.contents := rfl

/-! ### respondNoData -/

@[simp] theorem respondNoData_cfg : (s.respondNoData).cfg = s.cfg := rfl
@[simp] theorem respondNoData_stor : (s.respondNoData).stor = s.stor := rfl
@[simp] theorem respondNoData_rIdx : (s.respondNoData).rIdx = s.rIdx := rfl
@[simp] theorem respondNoData_rMir : (s.respondNoData).rMir = s.rMir := rfl
@[simp] theorem respondNoData_wIdx : (s.respondNoData).wIdx = s.wIdx := rfl
@[simp] theorem respondNoData_wMir : (s.respondNoData).wMir = s.wMir := rfl
@[simp] theorem respondNoData_init : (s.respondNoData).init = s.init := rfl
@[simp] theorem respondNoData_sig : (s.respondNoData).sig = s.sig := rfl
@[simp] theorem respondNoData_srcQ : (s.respondNoData).srcQ = s.srcQ := rfl
@[simp] theorem respondNoData_producer : (s.respondNoData).producer = s.producer := rfl
@[simp] theorem respondNoData_consumer : (s.respondNoData).consumer = s.consumer := rfl
@[simp] theorem respondNoData_takeRes : (s.respondNoData).takeRes = s.takeRes := rfl
@[simp] theorem respondNoData_stuck : (s.respondNoData).stuck = s.stuck := rfl
@[simp] theorem respondNoData_resp : (s.respondNoData).resp = s.resp.put s.port (.noData s.draws) := rfl
@[simp] theorem respondNoData_inbox : (s.respondNoData).inbox = s.inbox := rfl
@[simp] theorem respondNoData_port : (s.respondNoData).port = s.port := rfl
@[simp] theorem respondNoData_dataBusy : (s.respondNoData).dataBusy = s.dataBusy := rfl
@[simp] theorem respondNoData_draws : (s.respondNoData).draws = s.draws + 1 := rfl
@[simp] theorem respondNoData_occ : (s.respondNoData).occ = s.occ := rfl
@[simp] theorem respondNoData_isEmpty : (s.respondNoData).isEmpty = s.isEmpty := rfl
@[simp] theorem respondNoData_isFull : (s.respondNoData).isFull = s.isFull := rfl
@[simp] theorem respondNoData_contents : (s.respondNoData).contents = s.contents := rfl

/-! ### advanceRead -/

@[simp] theorem advanceRead_cfg : (s.advanceRead).cfg = s.cfg := rfl
@[simp] theorem advanceRead_stor : (s.advanceRead).stor = s.stor := rfl
@[simp] theorem advanceRead_rIdx : (s.advanceRead).rIdx = (advance s.cfg.cap s.rIdx s.rMir).1 := rfl
@[simp] theorem advanceRead_rMir : (s.advanceRead).rMir = (advance s.cfg.cap s.rIdx s.rMir).2 := rfl
@[simp] theorem advanceRead_wIdx : (s.advanceRead).wIdx = s.wIdx := rfl
@[simp] theorem advanceRead_wMir : (s.advanceRead).wMir = s.wMir := rfl
@[simp] theorem advanceRead_init : (s.advanceRead).init = s.init := rfl
@[simp] theorem advanceRead_sig : (s.advanceRead).sig = s.sig := rfl
@[simp] theorem advanceRead_srcQ : (s.advanceRead).srcQ = s.srcQ := rfl
@[simp] theorem advanceRead_producer : (s.advanceRead).producer = s.producer := rfl
@[simp] theorem advanceRead_consumer : (s.advanceRead).consumer = s.consumer := rfl
@[simp] theorem advanceRead_takeRes : (s.advanceRead).takeRes = s.takeRes := rfl
@[simp] theorem advanceRead_stuck : (s.advanceRead).stuck = s.stuck := rfl
@[simp] theorem advanceRead_resp : (s.advanceRead).resp = s.resp := rfl
@[simp] theorem advanceRead_inbox : (s.advanceRead).inbox = s.inbox := rfl
@[simp] theorem advanceRead_port : (s.advanceRead).port = s.port := rfl
@[simp] theorem advanceRead_dataBusy : (s.advanceRead).dataBusy = s.dataBusy := rfl
@[simp] theorem advanceRead_draws : (s.advanceRead).draws = s.draws := rfl

/-! ### advanceWrite -/

@[simp] theorem advanceWrite_cfg : (s.advanceWrite).cfg = s.cfg := rfl
@[simp] theorem advanceWrite_stor : (s.advanceWrite).stor = s.stor := rfl
@[simp] theorem advanceWrite_rIdx : (s.advanceWrite).rIdx = s.rIdx := rfl
@[simp] theorem advanceWrite_rMir : (s.advanceWrite).rMir = s.rMir := rfl
@[simp] theorem advanceWrite_wIdx : (s.advanceWrite).wIdx = (advance s.cfg.cap s.wIdx s.wMir).1 := rfl
@[simp] theorem advanceWrite_wMir : (s.advanceWrite).wMir = (advance s.cfg.cap s.wIdx s.wMir).2 := rfl
@[simp] theorem advanceWrite_init : (s.advanceWrite).init = s.init := rfl
@[simp] theorem advanceWrite_sig : (s.advanceWrite).sig = s.sig := rfl
@[simp] theorem advanceWrite_srcQ : (s.advanceWrite).srcQ = s.srcQ := rfl
@[simp] theorem advanceWrite_producer : (s.advanceWrite).producer = s.producer := rfl
@[simp] theorem advanceWrite_consumer : (s.advanceWrite).consumer = s.consumer := rfl
@[simp] theorem advanceWrite_takeRes : (s.advanceWrite).takeRes = s.takeRes := rfl
@[simp] theorem advanceWrite_stuck : (s.advanceWrite).stuck = s.stuck := rfl
@[simp] theorem advanceWrite_resp : (s.advanceWrite).resp = s.resp := rfl
@[simp] theorem advanceWrite_inbox : (s.advanceWrite).inbox = s.inbox := rfl
@[simp] theorem advanceWrite_port : (s.advanceWrite).port = s.port := rfl
@[simp] theorem advanceWrite_dataBusy : (s.advanceWrite).dataBusy = s.dataBusy := rfl
@[simp] theorem advanceWrite_draws : (s.advanceWrite).draws = s.draws := rfl

/-! ### clearRing -/

@[simp] theorem clearRing_cfg : (s.clearRing).cfg = s.cfg := rfl
@[simp] theorem clearRing_stor : (s.clearRing).stor = [] := rfl
@[simp] theorem clearRing_rIdx : (s.clearRing).rIdx = 0 := rfl
@[simp] theorem clearRing_rMir : (s.clearRing).rMir = false := rfl
@[simp] theorem clearRing_wIdx : (s.clearRing).wIdx = 0 := rfl
@[simp] theorem clearRing_wMir : (s.clearRing).wMir = false := rfl
@[simp] theorem clearRing_init : (s.clearRing).init = true := rfl
@[simp] theorem clearRing_sig : (s.clearRing).sig = s.sig := rfl
@[simp] theorem clearRing_srcQ : (s.clearRing).srcQ = s.srcQ := rfl
@[simp] theorem clearRing_producer : (s.clearRing).producer = s.producer := rfl
@[simp] theorem clearRing_consumer : (s.clearRing).consumer = s.consumer := rfl
@[simp] theorem clearRing_takeRes : (s.clearRing).takeRes = s.takeRes := rfl
@[simp] theorem clearRing_stuck : (s.clearRing).stuck = s.stuck := rfl
@[simp] theorem clearRing_resp : (s.clearRing).resp = s.resp := rfl
@[simp] theorem clearRing_inbox : (s.clearRing).inbox = s.inbox := rfl
@[simp] theorem clearRing_port : (s.clearRing).port = s.port := rfl
@[simp] theorem clearRing_dataBusy : (s.clearRing).dataBusy = s.dataBusy := rfl
@[simp] theorem clearRing_draws : (s.clearRing).draws = s.draws := rfl

/-! ### afterTake -/

@[simp] theorem afterTake_cfg (r : Option TakeResult) (c : Consumer) : (s.afterTake r c).cfg = s.cfg := rfl
@[simp] theorem afterTake_stor (r : Option TakeResult) (c : Consumer) : (s.afterTake r c).stor = s.stor := rfl
@[simp] theorem afterTake_rIdx (r : Option TakeResult) (c : Consumer) : (s.afterTake r c).rIdx = s.rIdx := rfl
@[simp] theorem afterTake_rMir (r : Option TakeResult) (c : Consumer) : (s.afterTake r c).rMir = s.rMir := rfl
@[simp] theorem afterTake_wIdx (r : Option TakeResult) (c : Consumer) : (s.afterTake r c).wIdx = s.wIdx := rfl
@[simp] theorem afterTake_wMir (r : Option TakeResult) (c : Consumer) : (s.afterTake r c).wMir = s.wMir := rfl
@[simp] theorem afterTake_init (r : Option TakeResult) (c : Consumer) : (s.afterTake r c).init = s.init := rfl
@[simp] theorem afterTake_sig (r : Option TakeResult) (c : Consumer) : (s.afterTake r c).sig = sigAfterTake s.sig r := rfl
@[simp] theorem afterTake_srcQ (r : Option TakeResult) (c : Consumer) : (s.afterTake r c).srcQ = s.srcQ := rfl
@[simp] theorem afterTake_producer (r : Option TakeResult) (c : Consumer) : (s.afterTake r c).producer = s.producer := rfl
@[simp] theorem afterTake_consumer (r : Option TakeResult) (c : Consumer) : (s.afterTake r c).consumer = c := rfl
@[simp] theorem afterTake_takeRes (r : Option TakeResult) (c : Consumer) : (s.afterTake r c).takeRes = r := rfl
@[simp] theorem afterTake_stuck (r : Option TakeResult) (c : Consumer) : (s.afterTake r c).stuck = s.stuck := rfl
@[simp] theorem afterTake_resp (r : Option TakeResult) (c : Consumer) : (s.afterTake r c).resp = s.resp := rfl
@[simp] theorem afterTake_inbox (r : Option TakeResult) (c : Consumer) : (s.afterTake r c).inbox = s.inbox := rfl
@[simp] theorem afterTake_port (r : Option TakeResult) (c : Consumer) : (s.afterTake r c).port = s.port := rfl
@[simp] theorem afterTake_dataBusy (r : Option TakeResult) (c : Consumer) : (s.afterTake r c).dataBusy = s.dataBusy := rfl
@[simp] theorem afterTake_draws (r : Option TakeResult) (c : Consumer) : (s.afterTake r c).draws = s.draws := rfl
@[simp] theorem afterTake_occ (r : Option TakeResult) (c : Consumer) : (s.afterTake r c).occ = s.occ := rfl
@[simp] theorem afterTake_isEmpty (r : Option TakeResult) (c : Consumer) : (s.afterTake r c).isEmpty = s.isEmpty := rfl
@[simp] theorem afterTake_isFull (r : Option TakeResult) (c : Consumer) : (s.afterTake r c).isFull = s.isFull := rfl
@[simp] theorem afterTake_contents (r : Option TakeResult) (c : Consumer) : (s.afterTake r c).contents = s.contents := rfl

/-! ### noteStuck -/

@[simp] theorem noteStuck_cfg : s.noteStuck.cfg = s.cfg := rfl
@[simp] theorem noteStuck_stor : s.noteStuck.stor = s.stor := rfl
@[simp] theorem noteStuck_rIdx : s.noteStuck.rIdx = s.rIdx := rfl
@[simp] theorem noteStuck_rMir : s.noteStuck.rMir = s.rMir := rfl
@[simp] theorem noteStuck_wIdx : s.noteStuck.wIdx = s.wIdx := rfl
@[simp] theorem noteStuck_wMir : s.noteStuck.wMir = s.wMir := rfl
@[simp] theorem noteStuck_init : s.noteStuck.init = s.init := rfl
@[simp] theorem noteStuck_sig : s.noteStuck.sig = s.sig := rfl
@[simp] theorem noteStuck_srcQ : s.noteStuck.srcQ = s.srcQ := rfl
@[simp] theorem noteStuck_producer : s.noteStuck.producer = s.producer := rfl
@[simp] theorem noteStuck_consumer : s.noteStuck.consumer = s.consumer := rfl
@[simp] theorem noteStuck_takeRes : s.noteStuck.takeRes = s.takeRes := rfl
@[simp] theorem noteStuck_stuck : s.noteStuck.stuck = (s.stuck || s.consumerStuck) := rfl
@[simp] theorem noteStuck_resp : s.noteStuck.resp = s.resp := rfl
@[simp] theorem noteStuck_inbox : s.noteStuck.inbox = s.inbox := rfl
@[simp] theorem noteStuck_port : s.noteStuck.port = s.port := rfl
@[simp] theorem noteStuck_dataBusy : s.noteStuck.dataBusy = s.dataBusy := rfl
@[simp] theorem noteStuck_draws : s.noteStuck.draws = s.draws := rfl
@[simp] theorem noteStuck_occ : s.noteStuck.occ = s.occ := rfl
@[simp] theorem noteStuck_isEmpty : s.noteStuck.isEmpty = s.isEmpty := rfl
@[simp] theorem noteStuck_isFull : s.noteStuck.isFull = s.isFull := rfl
@[simp] theorem noteStuck_contents : s.noteStuck.contents = s.contents := rfl
@[simp] theorem noteStuck_consumerStuck : s.noteStuck.consumerStuck = s.consumerStuck := rfl

/-- A consumer with an enabled step leaves the outcome as it is. -/
theorem noteStuck_eq_self (h : s.consumerStuck = false) : s.noteStuck = s := by
  simp [State.noteStuck, h]

/-! ### withRegisters -/

@[simp] theorem withRegisters_cfg (i : Nat) (m : Bool) (j : Nat) (n : Bool) : (s.withRegisters i m j n).cfg = s.cfg := rfl
@[simp] theorem withRegisters_stor (i : Nat) (m : Bool) (j : Nat) (n : Bool) : (s.withRegisters i m j n).stor = s.stor := rfl
@[simp] theorem withRegisters_rIdx (i : Nat) (m : Bool) (j : Nat) (n : Bool) : (s.withRegisters i m j n).rIdx = i := rfl
@[simp] theorem withRegisters_rMir (i : Nat) (m : Bool) (j : Nat) (n : Bool) : (s.withRegisters i m j n).rMir = m := rfl
@[simp] theorem withRegisters_wIdx (i : Nat) (m : Bool) (j : Nat) (n : Bool) : (s.withRegisters i m j n).wIdx = j := rfl
@[simp] theorem withRegisters_wMir (i : Nat) (m : Bool) (j : Nat) (n : Bool) : (s.withRegisters i m j n).wMir = n := rfl
@[simp] theorem withRegisters_init (i : Nat) (m : Bool) (j : Nat) (n : Bool) : (s.withRegisters i m j n).init = s.init := rfl
@[simp] theorem withRegisters_sig (i : Nat) (m : Bool) (j : Nat) (n : Bool) : (s.withRegisters i m j n).sig = s.sig := rfl
@[simp] theorem withRegisters_srcQ (i : Nat) (m : Bool) (j : Nat) (n : Bool) : (s.withRegisters i m j n).srcQ = s.srcQ := rfl
@[simp] theorem withRegisters_producer (i : Nat) (m : Bool) (j : Nat) (n : Bool) : (s.withRegisters i m j n).producer = s.producer := rfl
@[simp] theorem withRegisters_consumer (i : Nat) (m : Bool) (j : Nat) (n : Bool) : (s.withRegisters i m j n).consumer = s.consumer := rfl
@[simp] theorem withRegisters_takeRes (i : Nat) (m : Bool) (j : Nat) (n : Bool) : (s.withRegisters i m j n).takeRes = s.takeRes := rfl
@[simp] theorem withRegisters_stuck (i : Nat) (m : Bool) (j : Nat) (n : Bool) : (s.withRegisters i m j n).stuck = s.stuck := rfl
@[simp] theorem withRegisters_resp (i : Nat) (m : Bool) (j : Nat) (n : Bool) : (s.withRegisters i m j n).resp = s.resp := rfl
@[simp] theorem withRegisters_inbox (i : Nat) (m : Bool) (j : Nat) (n : Bool) : (s.withRegisters i m j n).inbox = s.inbox := rfl
@[simp] theorem withRegisters_port (i : Nat) (m : Bool) (j : Nat) (n : Bool) : (s.withRegisters i m j n).port = s.port := rfl
@[simp] theorem withRegisters_dataBusy (i : Nat) (m : Bool) (j : Nat) (n : Bool) : (s.withRegisters i m j n).dataBusy = s.dataBusy := rfl
@[simp] theorem withRegisters_draws (i : Nat) (m : Bool) (j : Nat) (n : Bool) : (s.withRegisters i m j n).draws = s.draws := rfl

/-! ### beginTick -/

@[simp] theorem beginTick_cfg (t : Tick) : (beginTick t s).cfg = s.cfg := rfl
@[simp] theorem beginTick_stor (t : Tick) : (beginTick t s).stor = s.stor := rfl
@[simp] theorem beginTick_rIdx (t : Tick) : (beginTick t s).rIdx = s.rIdx := rfl
@[simp] theorem beginTick_rMir (t : Tick) : (beginTick t s).rMir = s.rMir := rfl
@[simp] theorem beginTick_wIdx (t : Tick) : (beginTick t s).wIdx = s.wIdx := rfl
@[simp] theorem beginTick_wMir (t : Tick) : (beginTick t s).wMir = s.wMir := rfl
@[simp] theorem beginTick_init (t : Tick) : (beginTick t s).init = s.init := rfl
@[simp] theorem beginTick_sig (t : Tick) : (beginTick t s).sig = s.sig := rfl
@[simp] theorem beginTick_srcQ (t : Tick) : (beginTick t s).srcQ = s.srcQ ++ t.arrivals := rfl
@[simp] theorem beginTick_producer (t : Tick) : (beginTick t s).producer = s.producer := rfl
@[simp] theorem beginTick_consumer (t : Tick) : (beginTick t s).consumer = s.consumer := rfl
@[simp] theorem beginTick_takeRes (t : Tick) : (beginTick t s).takeRes = none := rfl
@[simp] theorem beginTick_stuck (t : Tick) : (beginTick t s).stuck = false := rfl
@[simp] theorem beginTick_resp (t : Tick) : (beginTick t s).resp = { prod := none, cons := none, ctrl := none } := rfl
@[simp] theorem beginTick_inbox (t : Tick) : (beginTick t s).inbox = s.inbox := rfl
@[simp] theorem beginTick_port (t : Tick) : (beginTick t s).port = s.port := rfl
@[simp] theorem beginTick_dataBusy (t : Tick) : (beginTick t s).dataBusy = (holdsCommand (prodWord t s) || holdsCommand (consWord t s)) := rfl
@[simp] theorem beginTick_draws (t : Tick) : (beginTick t s).draws = s.draws + 1 := rfl
@[simp] theorem beginTick_occ (t : Tick) : (beginTick t s).occ = s.occ := rfl
@[simp] theorem beginTick_isEmpty (t : Tick) : (beginTick t s).isEmpty = s.isEmpty := rfl
@[simp] theorem beginTick_isFull (t : Tick) : (beginTick t s).isFull = s.isFull := rfl
@[simp] theorem beginTick_contents (t : Tick) : (beginTick t s).contents = s.contents := rfl

/-! ### endTick -/

@[simp] theorem endTick_cfg : (endTick s).cfg = s.cfg := rfl
@[simp] theorem endTick_stor : (endTick s).stor = s.stor := rfl
@[simp] theorem endTick_rIdx : (endTick s).rIdx = s.rIdx := rfl
@[simp] theorem endTick_rMir : (endTick s).rMir = s.rMir := rfl
@[simp] theorem endTick_wIdx : (endTick s).wIdx = s.wIdx := rfl
@[simp] theorem endTick_wMir : (endTick s).wMir = s.wMir := rfl
@[simp] theorem endTick_init : (endTick s).init = s.init := rfl
@[simp] theorem endTick_sig : (endTick s).sig = s.sig := rfl
@[simp] theorem endTick_srcQ : (endTick s).srcQ = s.srcQ := rfl
@[simp] theorem endTick_producer : (endTick s).producer = s.producer := rfl
@[simp] theorem endTick_consumer : (endTick s).consumer = s.consumer := rfl
@[simp] theorem endTick_takeRes : (endTick s).takeRes = s.takeRes := rfl
@[simp] theorem endTick_stuck : (endTick s).stuck = s.stuck := rfl
@[simp] theorem endTick_resp : (endTick s).resp = s.resp := rfl
@[simp] theorem endTick_inbox : (endTick s).inbox = s.inbox := rfl
@[simp] theorem endTick_port : (endTick s).port = .ctrl := rfl
@[simp] theorem endTick_dataBusy : (endTick s).dataBusy = false := rfl
@[simp] theorem endTick_draws : (endTick s).draws = s.draws := rfl
@[simp] theorem endTick_occ : (endTick s).occ = s.occ := rfl
@[simp] theorem endTick_isEmpty : (endTick s).isEmpty = s.isEmpty := rfl
@[simp] theorem endTick_isFull : (endTick s).isFull = s.isFull := rfl
@[simp] theorem endTick_contents : (endTick s).contents = s.contents := rfl

/-! ### takeTick -/

@[simp] theorem takeTick_cfg : (takeTick s).cfg = s.cfg := rfl
@[simp] theorem takeTick_stor : (takeTick s).stor = s.stor := rfl
@[simp] theorem takeTick_rIdx : (takeTick s).rIdx = s.rIdx := rfl
@[simp] theorem takeTick_rMir : (takeTick s).rMir = s.rMir := rfl
@[simp] theorem takeTick_wIdx : (takeTick s).wIdx = s.wIdx := rfl
@[simp] theorem takeTick_wMir : (takeTick s).wMir = s.wMir := rfl
@[simp] theorem takeTick_init : (takeTick s).init = s.init := rfl
@[simp] theorem takeTick_sig : (takeTick s).sig = s.sig := rfl
@[simp] theorem takeTick_srcQ : (takeTick s).srcQ = s.srcQ := rfl
@[simp] theorem takeTick_producer : (takeTick s).producer = s.producer := rfl
@[simp] theorem takeTick_consumer : (takeTick s).consumer = s.consumer := rfl
@[simp] theorem takeTick_takeRes : (takeTick s).takeRes = s.takeRes := rfl
@[simp] theorem takeTick_stuck : (takeTick s).stuck = s.stuck := rfl
@[simp] theorem takeTick_resp : (takeTick s).resp = s.resp := rfl
@[simp] theorem takeTick_inbox : (takeTick s).inbox = s.inbox.tail := rfl
@[simp] theorem takeTick_port : (takeTick s).port = s.port := rfl
@[simp] theorem takeTick_dataBusy : (takeTick s).dataBusy = s.dataBusy := rfl
@[simp] theorem takeTick_draws : (takeTick s).draws = s.draws := rfl
@[simp] theorem takeTick_occ : (takeTick s).occ = s.occ := rfl
@[simp] theorem takeTick_isEmpty : (takeTick s).isEmpty = s.isEmpty := rfl
@[simp] theorem takeTick_isFull : (takeTick s).isFull = s.isFull := rfl
@[simp] theorem takeTick_contents : (takeTick s).contents = s.contents := rfl

/-! ### presentTick -/

@[simp] theorem presentTick_cfg (t : Tick) : (presentTick t s).cfg = s.cfg := rfl
@[simp] theorem presentTick_stor (t : Tick) : (presentTick t s).stor = s.stor := rfl
@[simp] theorem presentTick_rIdx (t : Tick) : (presentTick t s).rIdx = s.rIdx := rfl
@[simp] theorem presentTick_rMir (t : Tick) : (presentTick t s).rMir = s.rMir := rfl
@[simp] theorem presentTick_wIdx (t : Tick) : (presentTick t s).wIdx = s.wIdx := rfl
@[simp] theorem presentTick_wMir (t : Tick) : (presentTick t s).wMir = s.wMir := rfl
@[simp] theorem presentTick_init (t : Tick) : (presentTick t s).init = s.init := rfl
@[simp] theorem presentTick_sig (t : Tick) : (presentTick t s).sig = s.sig := rfl
@[simp] theorem presentTick_srcQ (t : Tick) : (presentTick t s).srcQ = s.srcQ := rfl
@[simp] theorem presentTick_producer (t : Tick) : (presentTick t s).producer = s.producer := rfl
@[simp] theorem presentTick_consumer (t : Tick) : (presentTick t s).consumer = s.consumer := rfl
@[simp] theorem presentTick_takeRes (t : Tick) : (presentTick t s).takeRes = s.takeRes := rfl
@[simp] theorem presentTick_stuck (t : Tick) : (presentTick t s).stuck = s.stuck := rfl
@[simp] theorem presentTick_resp (t : Tick) : (presentTick t s).resp = s.resp := rfl
@[simp] theorem presentTick_inbox (t : Tick) : (presentTick t s).inbox = t :: s.inbox := rfl
@[simp] theorem presentTick_port (t : Tick) : (presentTick t s).port = s.port := rfl
@[simp] theorem presentTick_dataBusy (t : Tick) : (presentTick t s).dataBusy = s.dataBusy := rfl
@[simp] theorem presentTick_draws (t : Tick) : (presentTick t s).draws = s.draws := rfl
@[simp] theorem presentTick_occ (t : Tick) : (presentTick t s).occ = s.occ := rfl
@[simp] theorem presentTick_isEmpty (t : Tick) : (presentTick t s).isEmpty = s.isEmpty := rfl
@[simp] theorem presentTick_isFull (t : Tick) : (presentTick t s).isFull = s.isFull := rfl
@[simp] theorem presentTick_contents (t : Tick) : (presentTick t s).contents = s.contents := rfl

end Sys2Proof.Machine
end

