-- ==== Sys2Proof/Laws/Ops.lean ====
section
/-! SUPPORT. For each shared operation, once, everything it can do. -/

namespace Sys2Proof.Machine

open Sys2Proof

/-! ### Outcomes -/

@[simp] theorem andThen_next {α β : Type} (a : α) (f : α → Host.Outcome β Fault Refusal) :
    andThen (.next a) f = f a := rfl

@[simp] theorem andThen_fault {α β : Type} (r : Fault) (f : α → Host.Outcome β Fault Refusal) :
    andThen (.fault r) f = .fault r := rfl

@[simp] theorem andThen_refused {α β : Type} (r : Refusal) (f : α → Host.Outcome β Fault Refusal) :
    andThen (.refused r) f = .refused r := rfl

/-- A chain answers a next state exactly when both its parts do. -/
theorem andThen_eq_next {α β : Type} {o : Host.Outcome α Fault Refusal}
    {f : α → Host.Outcome β Fault Refusal} {b : β} :
    andThen o f = .next b ↔ ∃ a, o = .next a ∧ f a = .next b := by
  cases o <;> simp

/-- A chain faults exactly when its first part does, or its second after the first. -/
theorem andThen_eq_fault {α β : Type} {o : Host.Outcome α Fault Refusal}
    {f : α → Host.Outcome β Fault Refusal} {r : Fault} :
    andThen o f = .fault r ↔ o = .fault r ∨ ∃ a, o = .next a ∧ f a = .fault r := by
  cases o <;> simp

/-- A chain is refused exactly when its first part is, or its second after the first. -/
theorem andThen_eq_refused {α β : Type} {o : Host.Outcome α Fault Refusal}
    {f : α → Host.Outcome β Fault Refusal} {r : Refusal} :
    andThen o f = .refused r ↔ o = .refused r ∨ ∃ a, o = .next a ∧ f a = .refused r := by
  cases o <;> simp

/-! ### Cells -/

/-- A cell read answers a byte exactly when the cell exists and holds it. -/
theorem readCell_eq_next {s : State} {i : Nat} {b : Byte} :
    readCell s i = .next b ↔ i < s.cfg.cap ∧ Memory.read s.stor i = some b := by
  unfold readCell
  split_ifs with h
  · split <;> simp_all
  · simp [h]

/-- A cell write goes on exactly when the cell exists, and then it writes that cell only. -/
theorem writeCell_eq_next {s t : State} {i : Nat} {b : Byte} :
    writeCell s i b = .next t ↔ i < s.cfg.cap ∧ t = { s with stor := Memory.write s.stor i b } := by
  unfold writeCell
  split_ifs with h
  · simp [h, eq_comm]
  · simp [h]

/-- A cell read is never refused. -/
theorem readCell_not_refused {s : State} {i : Nat} {r : Refusal} : readCell s i ≠ .refused r := by
  unfold readCell
  split_ifs
  · split <;> simp
  · simp

/-- A cell write is never refused. -/
theorem writeCell_not_refused {s : State} {i : Nat} {b : Byte} {r : Refusal} :
    writeCell s i b ≠ .refused r := by
  unfold writeCell
  split_ifs <;> simp

/-! ### The checks -/

/-- The checks pass exactly when the port accepts the command, the ring is initialised or the
command is INIT, and no data command stands beside an INIT. -/
theorem commandRefusal_eq_none {i : Instr} {s : State} :
    commandRefusal i s = none ↔
      portAccepts s.port i = true ∧ (i ≠ .init → s.init = true) ∧ (i = .init → s.dataBusy = false) := by
  unfold commandRefusal
  split_ifs with h1 h2 h3
  · simp [h1]
  · simp only [false_iff, not_and]
    intro _ h
    exact absurd (h h2.1) (by simp [h2.2])
  · simp only [false_iff, not_and]
    intro _ _ h
    exact absurd (h h3.1) (by simp [h3.2])
  · simp only [true_iff]
    refine ⟨by simpa using h1, fun h => ?_, fun h => ?_⟩
    · by_contra hc
      exact h2 ⟨h, by simpa using hc⟩
    · by_contra hc
      exact h3 ⟨h, by simpa using hc⟩

/-- The reasons a decoded command can be refused. -/
theorem commandRefusal_eq_some {i : Instr} {s : State} {r : Refusal} (h : commandRefusal i s = some r) :
    r = .wrongPort ∨ r = .notInitialised ∨ r = .initConcurrent := by
  unfold commandRefusal at h
  split_ifs at h <;> simp_all

/-! ### The Signal -/

/-- `release` adds one permit, unless the Signal is at its bound. -/
theorem release_eq_next {s t : State} :
    release s = .next t ↔ s.cfg.sigMax ≠ some s.sig ∧ t = { s with sig := s.sig + 1 } := by
  unfold release
  split_ifs with h
  · simp [h]
  · simp [h, eq_comm]

/-- `release` faults exactly at the bound, and with one fault. -/
theorem release_eq_fault {s : State} {r : Fault} :
    release s = .fault r ↔ s.cfg.sigMax = some s.sig ∧ r = .signalOverflow := by
  unfold release
  split_ifs with h <;> simp [h, eq_comm]

/-- `release` is never refused. -/
theorem release_not_refused {s : State} {r : Refusal} : release s ≠ .refused r := by
  unfold release
  split_ifs <;> simp

/-- A `take` succeeds exactly where there is a permit. -/
theorem takeAttempt_eq_ok {t : Timeout} {w e : Bool} {n : Nat} :
    takeAttempt t w e n = some .ok ↔ 0 < n := by
  unfold takeAttempt
  split_ifs with h h' <;> simp [h]

/-- A `take` times out exactly where it was already waiting, its timeout is finite, the choice is to
expire, and there is no permit. -/
theorem takeAttempt_eq_timedOut {t : Timeout} {w e : Bool} {n : Nat} :
    takeAttempt t w e n = some .timedOut ↔ n = 0 ∧ w = true ∧ e = true ∧ t = .finite := by
  unfold takeAttempt
  split_ifs with h h'
  · simp; omega
  · simp only [true_iff]; exact ⟨by omega, h'⟩
  · simp only [false_iff]; exact fun hc => h' hc.2

/-! ### The advance -/

/-- An advance from inside the ring stays inside it. -/
theorem advance_lt {cap i : Nat} {m : Bool} (h : i < cap) : (advance cap i m).1 < cap := by
  unfold advance
  split_ifs <;> simp only <;> omega

/-- The mirror flips exactly at the wrap. -/
theorem advance_mirror {cap i : Nat} {m : Bool} :
    (advance cap i m).2 = if i + 1 = cap then !m else m := by
  unfold advance
  split_ifs <;> rfl

/-! ### Configuration -/

/-- A configuration is refused exactly when it is not well formed. -/
theorem configRefusal_eq_none {c : Config} : configRefusal c = none ↔ c.wellFormed = true := by
  unfold configRefusal Config.wellFormed
  split_ifs <;> simp_all

end Sys2Proof.Machine
end

