-- ==== Sys2Proof/Laws/Step.lean ====
section
/-! SUPPORT. What an issued word, a port and a step can do. -/

namespace Sys2Proof.Machine

open Sys2Proof

/-- An issued word that goes on is a command, executed on its port. -/
theorem issue_eq_next {p : Port} {w : Word} {s t : State} :
    issue p w s = .next t ↔ ∃ i, decode w = .command i ∧ exec i (s.withPort p) = .next t := by
  unfold issue
  cases decode w <;> simp

/-- A step that goes on ran the next tick of a well-formed configuration. -/
theorem step_eq_next {s t : State} :
    step s = .next t ↔ s.cfg.wellFormed = true ∧ runTick (nextTick s) (takeTick s) = .next t := by
  unfold step
  cases h : configRefusal s.cfg with
  | none => simp [configRefusal_eq_none.1 h]
  | some r =>
    have : s.cfg.wellFormed ≠ true := fun hc => by
      rw [configRefusal_eq_none.2 hc] at h; cases h
    simp [this]

/-- A step whose outcome is Next state (00_scope.md R10). -/
theorem stepOutcome_eq_next {s t : State} :
    stepOutcome s = .next t ↔ step s = .next t ∧ t.stuck = false := by
  unfold stepOutcome
  cases step s with
  | next u =>
    by_cases hu : u.stuck = true <;> simp [outcomeOf, hu] <;> rintro rfl <;> simp [hu]
  | fault r => simp [outcomeOf]
  | refused r => simp [outcomeOf]

/-- A step whose outcome is Stuck (00_scope.md R10). -/
theorem stepOutcome_eq_stuck {s t : State} :
    stepOutcome s = .stuck t ↔ step s = .next t ∧ t.stuck = true := by
  unfold stepOutcome
  cases step s with
  | next u =>
    by_cases hu : u.stuck = true <;> simp [outcomeOf, hu] <;> rintro rfl <;> simp [hu]
  | fault r => simp [outcomeOf]
  | refused r => simp [outcomeOf]

/-- A tick that goes on served its ports in its order. -/
theorem runTick_eq_next {t : Tick} {s s' : State} :
    runTick t s = .next s' ↔ ∃ u, servePorts t (portOrder t) (beginTick t s) = .next u ∧ s' = endTick u := by
  unfold runTick
  simp only [andThen_eq_next, Host.Outcome.next.injEq]
  exact exists_congr fun u => and_congr_right fun _ => eq_comm

/-- Ports are served one after another. -/
theorem servePorts_cons_eq_next {t : Tick} {p : Port} {ps : List Port} {s s' : State} :
    servePorts t (p :: ps) s = .next s' ↔ ∃ u, servePort t p s = .next u ∧ servePorts t ps u = .next s' := by
  simp [servePorts, andThen_eq_next]

/-- What INIT can do. -/
theorem execInit_eq_next {s t : State} :
    execInit s = .next t ↔ commandRefusal .init s = none ∧ t = s.clearRing.respond .unit := by
  unfold execInit
  cases commandRefusal .init s <;> simp [eq_comm]

/-- What PUT can do: drop its byte on a full buffer, or store it and advance. -/
theorem execPut_eq_next {b : Byte} {s t : State} :
    execPut b s = .next t ↔ commandRefusal (.put b) s = none ∧
      ((s.isFull = true ∧ t = s.respond (.stored false)) ∨
       (s.isFull = false ∧ s.wIdx < s.cfg.cap ∧
         t = ({ s with stor := Memory.write s.stor s.wIdx b } : State).advanceWrite.respond (.stored true))) := by
  unfold execPut
  cases commandRefusal (.put b) s with
  | some r => simp
  | none =>
    cases hf : s.isFull
    · simp only [Bool.false_eq_true, if_false, andThen_eq_next, writeCell_eq_next]
      constructor
      · rintro ⟨u, ⟨h, rfl⟩, hu⟩
        exact ⟨trivial, .inr ⟨trivial, h, by simpa [eq_comm] using hu⟩⟩
      · rintro ⟨-, h | ⟨-, h, rfl⟩⟩
        · simp at h
        · exact ⟨_, ⟨h, rfl⟩, rfl⟩
    · simp [eq_comm]

/-- What GET can do: answer that there is no data, or give the oldest byte and advance. -/
theorem execGet_eq_next {s t : State} :
    execGet s = .next t ↔ commandRefusal .get s = none ∧
      ((s.isEmpty = true ∧ t = s.respondNoData) ∨
       (s.isEmpty = false ∧ s.rIdx < s.cfg.cap ∧
         ∃ b, Memory.read s.stor s.rIdx = some b ∧ t = s.advanceRead.respond (.byte b))) := by
  unfold execGet
  cases commandRefusal .get s with
  | some r => simp
  | none =>
    cases he : s.isEmpty
    · simp only [Bool.false_eq_true, if_false, andThen_eq_next, readCell_eq_next]
      constructor
      · rintro ⟨b, ⟨h, hb⟩, ht⟩
        exact ⟨trivial, .inr ⟨trivial, h, b, hb, by simpa [eq_comm] using ht⟩⟩
      · rintro ⟨-, h | ⟨-, h, b, hb, rfl⟩⟩
        · simp at h
        · exact ⟨b, ⟨h, hb⟩, rfl⟩
    · simp [eq_comm]

/-- What LEN can do. -/
theorem execLen_eq_next {s t : State} :
    execLen s = .next t ↔ commandRefusal .len s = none ∧ t = s.respond (.count s.occ) := by
  unfold execLen
  cases commandRefusal .len s <;> simp [eq_comm]

end Sys2Proof.Machine
end

