-- ==== Sys2Proof/Laws/Agents.lean ====
section
/-! SUPPORT. What the agents' moves and the configuration can do. -/

namespace Sys2Proof.Machine

open Sys2Proof

/-- The producer routine's step, by where it stands. -/
theorem producerRun_eq_next {s t : State} :
    producerRun s = .next t ↔
      (s.producer = .idle ∧ t = s) ∨
      (s.producer = .testing ∧
        t = { s with producer := if s.srcQ.isEmpty then .releasing else .reading }) ∨
      (∃ b q, s.producer = .reading ∧ s.srcQ = b :: q ∧ t = { s with srcQ := q, producer := .putting b }) ∨
      (∃ b u, s.producer = .putting b ∧ issue .prod (encode (.put b)) s = .next u ∧
        t = { u with producer := .testing }) ∨
      (∃ u, s.producer = .releasing ∧ release s = .next u ∧ t = { u with producer := .idle }) := by
  unfold producerRun
  cases hp : s.producer with
  | idle => simpa using eq_comm
  | testing => simpa using eq_comm
  | reading =>
    cases hq : s.srcQ with
    | nil => simp
    | cons b q =>
      simp only [Host.Outcome.next.injEq, reduceCtorEq, false_and, true_and, List.cons.injEq, false_or,
        or_false, exists_false]
      constructor
      · rintro rfl
        exact ⟨b, q, ⟨rfl, rfl⟩, rfl⟩
      · rintro ⟨_, _, ⟨rfl, rfl⟩, rfl⟩
        rfl
  | putting b =>
    simp only [andThen_eq_next, Host.Outcome.next.injEq, reduceCtorEq, false_and, Producer.putting.injEq,
      exists_false, false_or, or_false]
    constructor
    · rintro ⟨u, h, rfl⟩
      exact ⟨b, u, rfl, h, rfl⟩
    · rintro ⟨_, u, rfl, h, rfl⟩
      exact ⟨u, h, rfl⟩
  | releasing =>
    simp only [andThen_eq_next, Host.Outcome.next.injEq, reduceCtorEq, false_and, exists_false, false_or,
      true_and]
    exact exists_congr fun u => and_congr_right fun _ => eq_comm

/-- The consumer's step, by where it stands. -/
theorem consumerRun_eq_next {e : Bool} {s t : State} :
    consumerRun e s = .next t ↔
      (s.consumer = .idle ∧ t = s) ∨
      (∃ r, s.consumer = .returned r ∧ t = s) ∨
      (∃ x u, s.consumer = .waitForData x ∧ issue .cons (encode .get) s = .next u ∧
        t = { u with consumer := afterGet x u.resp.cons }) ∨
      (∃ x w, s.consumer = .blockedOnSignal x w ∧
        t = s.afterTake (takeAttempt x w e s.sig) (afterBlocked x (takeAttempt x w e s.sig))) ∨
      (∃ x, s.consumer = .bareTake x ∧
        t = s.afterTake (takeAttempt x true e s.sig) (afterBareTake x (takeAttempt x true e s.sig))) := by
  unfold consumerRun
  cases hc : s.consumer with
  | idle => simpa using eq_comm
  | returned r => simpa using eq_comm
  | waitForData x =>
    simp only [andThen_eq_next, Host.Outcome.next.injEq, reduceCtorEq, false_and, exists_false, false_or,
      or_false, Consumer.waitForData.injEq]
    constructor
    · rintro ⟨u, h, rfl⟩
      exact ⟨x, u, rfl, h, rfl⟩
    · rintro ⟨_, u, rfl, h, rfl⟩
      exact ⟨u, h, rfl⟩
  | blockedOnSignal x w =>
    simp only [Host.Outcome.next.injEq, reduceCtorEq, false_and, exists_false, false_or, or_false,
      Consumer.blockedOnSignal.injEq]
    constructor
    · rintro rfl
      exact ⟨x, w, ⟨rfl, rfl⟩, rfl⟩
    · rintro ⟨_, _, ⟨rfl, rfl⟩, rfl⟩
      rfl
  | bareTake x =>
    simp only [Host.Outcome.next.injEq, reduceCtorEq, false_and, exists_false, false_or,
      Consumer.bareTake.injEq]
    constructor
    · rintro rfl
      exact ⟨x, rfl, rfl⟩
    · rintro ⟨_, rfl, rfl⟩
      rfl

/-- Only a consumer that waits in a `take` with no timeout and no permit is stuck. -/
theorem consumerStuck_iff {s : State} :
    s.consumerStuck = true ↔
      (s.consumer = .blockedOnSignal .forever true ∨ s.consumer = .bareTake .forever) ∧ s.sig = 0 := by
  unfold State.consumerStuck
  split <;> simp_all

/-- A stuck consumer is in a call or blocked. -/
theorem busy_of_consumerStuck {s : State} (h : s.consumerStuck = true) : s.consumer.busy = true := by
  obtain ⟨h | h, -⟩ := consumerStuck_iff.1 h <;> rw [h] <;> rfl

/-- A stuck consumer's turn leaves it where it is, and the step is noted as Stuck. -/
theorem consumerMove_of_stuck {m : ConsMove} {s : State} (hm : ∀ w, m ≠ .word w)
    (h : s.consumerStuck = true) :
    ∃ r, (r = none ∨ r = s.takeRes) ∧ consumerMove m s = .next { s with takeRes := r, stuck := true } := by
  have hb := busy_of_consumerStuck h
  obtain ⟨hc, h0⟩ := consumerStuck_iff.1 h
  cases m with
  | word w => exact absurd rfl (hm w)
  | call x => exact ⟨s.takeRes, .inr rfl, by simp [consumerMove, consumerCall, State.noteStuck, hb, h]⟩
  | run e =>
    refine ⟨none, .inl rfl, ?_⟩
    rcases hc with hc | hc <;>
      simp [consumerMove, consumerRun, State.noteStuck, h, hc, h0, takeAttempt, State.afterTake,
        sigAfterTake, afterBlocked, afterBareTake]
  | release => exact ⟨s.takeRes, .inr rfl, by simp [consumerMove, consumerRelease, State.noteStuck, hb, h]⟩
  | take x => exact ⟨s.takeRes, .inr rfl, by simp [consumerMove, consumerTake, State.noteStuck, hb, h]⟩

/-- The interrupt changes nothing but where the producer routine stands. -/
theorem interrupt_eq (s : State) :
    interrupt s = { s with producer := if s.producer = .idle then .testing else s.producer } := by
  obtain ⟨_, _, _, _, _, _, _, _, _, p, _, _, _, _, _, _, _, _⟩ := s
  cases p <;> rfl

/-- A configured block is right after power-on, with the configuration asked for. -/
theorem configure_eq_next {c : Int} {cm sm : Option Nat} {np nc i j : Nat} {m n : Bool}
    {q : List Byte} {t : State} (h : configure c cm sm np nc i m j n q = .next t) :
    t = State.powerOn ⟨c.toNat, cm, sm, np, nc⟩ i m j n q ∧ t.cfg.wellFormed = true := by
  unfold configure at h
  cases hr : configRefusal ⟨c.toNat, cm, sm, np, nc⟩ with
  | some r => rw [hr] at h; cases h
  | none =>
    rw [hr] at h
    cases h
    exact ⟨rfl, configRefusal_eq_none.1 hr⟩

end Sys2Proof.Machine
end

