-- ==== Sys2Proof/Laws/PerInstr.lean ====
section
/-! SUPPORT. Statements made once per command. -/

namespace Sys2Proof.Laws

open Sys2Proof

/-- The word of a command carries the fixed bits of its row (30_encoding.md R62). -/
def RowBits.Statement (i : Instr) : Prop :=
  i.wellFormed = true ∧ encode i &&& rowMask i = rowMatch i

theorem RowBits.init : RowBits.Statement .init := by unfold RowBits.Statement; decide

theorem RowBits.put (b : Byte) : RowBits.Statement (.put b) := by
  unfold RowBits.Statement
  revert b
  decide

theorem RowBits.get : RowBits.Statement .get := by unfold RowBits.Statement; decide

theorem RowBits.len : RowBits.Statement .len := by unfold RowBits.Statement; decide

end Sys2Proof.Laws
end

