-- ==== Sys2Proof/Tests/Slice0.lean ====
section
/-! SUPPORT. Small tests, their expected results taken from 95_test_vectors.md, and for every
statement with hypotheses a state and operands that meet them. -/

namespace Sys2Proof.Tests

open Sys2Proof Sys2Proof.Machine

/-! ### States -/

/-- An initialised block of `cap` cells with these registers and cells. -/
def ring (cap r : Nat) (rm : Bool) (w : Nat) (wm : Bool) (stor : Memory) : State :=
  { State.powerOn ⟨cap, none, none, 1, 1⟩ r rm w wm [] with stor := stor, init := true }

/-- `C = 4`, `(0, 0, 0, 0)`, empty. -/
def empty4 : State := ring 4 0 false 0 false []

/-- `C = 4`, `(0, 0, 3, 0)`: the next PUT wraps and fills. -/
def three4 : State := ring 4 0 false 3 false [(0, 1), (1, 2), (2, 3)]

/-- `C = 4`, `(0, 0, 0, 1)`, full. -/
def full4 : State := ring 4 0 false 0 true [(0, 1), (1, 2), (2, 3), (3, 4)]

/-- `C = 4`, `(3, 0, 1, 1)`, cells 3 and 0 occupied: the next GET wraps. -/
def wrap4 : State := ring 4 3 false 1 true [(0, 8), (3, 7)]

/-- `C = 4`, `(0, 1, 1, 1)`, cell 0 occupied: the next GET empties. -/
def last4 : State := ring 4 0 true 1 true [(0, 8)]

/-- `C = 1`, empty. -/
def empty1 : State := ring 1 0 false 0 false []

/-- `C = 4` before INIT, the registers at values power-on might leave. -/
def raw4 : State := State.powerOn ⟨4, none, none, 1, 1⟩ 2 true 1 false []

/-- A Signal bounded by 1 and at its bound. -/
def bounded : State := { empty4 with cfg := ⟨4, none, some 1, 1, 1⟩, sig := 1 }

/-- Whether an outcome is a next state that passes a check. -/
def nextIs (o : Result) (p : State → Bool) : Bool :=
  match o with
  | .next s => p s
  | .fault _ => false
  | .refused _ => false

/-- Whether an outcome is this refusal. -/
def refusedAs (o : Result) (r : Refusal) : Bool :=
  match o with
  | .next _ => false
  | .fault _ => false
  | .refused q => decide (q = r)

/-! ### Decoding: words written out bit by bit from 30_encoding.md R62 -/

theorem test_decode_init : decode 0b0000000000#10 = .command .init := by decide

theorem test_decode_put_2a : decode 0b0100101010#10 = .command (.put 0x2A#8) := by decide

theorem test_decode_put_ff : decode 0b0111111111#10 = .command (.put 0xFF#8) := by decide

theorem test_decode_get : decode 0b1000000000#10 = .command .get := by decide

theorem test_decode_len : decode 0b1100000000#10 = .command .len := by decide

theorem test_decode_reserved : decode 0b1011111111#10 = .reserved 0x2FF#10 := by decide

theorem test_table_words :
    decodeTableWord 16 0x000 = some .init ∧ decodeTableWord 16 0x148 = some (.put 0x48#8) ∧
    decodeTableWord 16 0x200 = some .get ∧ decodeTableWord 16 0x300 = some .len ∧
    decodeTableWord 16 0x301 = none ∧ decodeTableWord 16 0x400 = none := by decide

/-! ### WellFormed: every check refuses an ill-formed term -/

theorem test_wellFormed_reset : Config.atReset.wellFormed = true := by decide

theorem test_illFormed_capacity : Config.wellFormed ⟨0, none, none, 1, 1⟩ = false := by decide

theorem test_illFormed_above_max : Config.wellFormed ⟨5, some 4, none, 1, 1⟩ = false := by decide

theorem test_illFormed_signal : Config.wellFormed ⟨4, none, some 0, 1, 1⟩ = false := by decide

theorem test_illFormed_producers : Config.wellFormed ⟨4, none, none, 2, 1⟩ = false := by decide

theorem test_illFormed_consumers : Config.wellFormed ⟨4, none, none, 1, 2⟩ = false := by decide

/-- No agent on a port is no ground for a refusal (log entry 26). -/
theorem test_wellFormed_no_agents : Config.wellFormed ⟨4, none, none, 0, 0⟩ = true := by decide

theorem test_wellFormed_instr : Instr.wellFormed (.put 0xFF#8) = true := by decide

/-! ### One step (95_test_vectors.md §2.2 to §2.5) -/

/-- §2.2: INIT on `(2, 1, 1, 0)`. -/
theorem test_init : nextIs (step ((ring 4 2 true 1 false []).withFetchWord 16 0x000))
    (fun s => decide (s.registers = (0, false, 0, false) ∧ s.occ = 0 ∧ s.resp.ctrl = some .unit)) = true := by
  decide

/-- §2.2: INIT on PROD. -/
theorem test_init_wrong_port :
    refusedAs (step { empty4 with inbox := [wordTick .prod 0x000#10] }) .wrongPort = true := by decide

/-- §2.3: the write at `C - 1` wraps and fills. -/
theorem test_put_wraps : nextIs (step (three4.withFetchWord 16 0x12A))
    (fun s => decide (s.registers = (0, false, 0, true) ∧ s.isFull = true ∧
      Memory.read s.stor 3 = some 0x2A#8 ∧ s.resp.prod = some (.stored true))) = true := by decide

/-- §2.3: a full buffer drops. -/
theorem test_put_full : nextIs (step (full4.withFetchWord 16 0x1FF))
    (fun s => decide (s.registers = (0, false, 0, true) ∧ s.stor = full4.stor ∧
      s.resp.prod = some (.stored false))) = true := by decide

/-- §2.4: the read at `C - 1` wraps. -/
theorem test_get_wraps : nextIs (step (wrap4.withFetchWord 16 0x200))
    (fun s => decide (s.registers = (0, true, 1, true) ∧ s.resp.cons = some (.byte 0x07#8))) = true := by
  decide

/-- §2.4: GET before INIT. -/
theorem test_get_before_init : refusedAs (step (raw4.withFetchWord 16 0x200)) .notInitialised = true := by
  decide

/-- 42_query.md R100's worked example. -/
theorem test_len : nextIs (step { wrap4 with inbox := [wordTick .prod 0x300#10] })
    (fun s => decide (s.resp.prod = some (.count 2))) = true := by decide

/-- §2.5, the row (1, 0, 0, 0), which is not reachable: the mirrors are not read. -/
theorem test_len_total : (ring 2 1 false 0 false []).occ = 1 := by decide

/-- §2.6, second row: the two orders of a PUT and a GET on a full buffer. -/
theorem test_both_orders :
    nextIs (step { full4 with inbox := [{ Tick.quiet with prod := some (.word 0x155#10), cons := some (.word 0x200#10) }] })
      (fun s => decide (s.registers = (1, false, 0, true))) = true ∧
    nextIs (step { full4 with inbox := [{ Tick.quiet with prod := some (.word 0x155#10),
                                                          cons := some (.word 0x200#10), order := .cps }] })
      (fun s => decide (s.registers = (1, false, 1, true))) = true := by decide

/-- 20_memory.md R49: an INIT on CTRL leaves the tick's order to the other two ports, so a `take` of
the consumer is served before a `release` of the producer. -/
theorem test_init_keeps_order :
    nextIs (step { wrap4 with inbox := [{ Tick.quiet with prod := some .release, cons := some (.take .forever),
                                                          ctrl := some 0x000#10, order := .cps }] })
      (fun s => decide (s.sig = 1 ∧ s.takeRes = none ∧ s.registers = (0, false, 0, false))) = true := by decide

/-! ### The environment (95_test_vectors.md §2.7) -/

theorem test_release_overflow : release bounded = .fault .signalOverflow := by rfl

theorem test_take_at_once : nextIs (consumerMove (.take .forever) { empty4 with sig := 2 })
    (fun s => decide (s.sig = 1 ∧ s.takeRes = some .ok)) = true := by decide

theorem test_take_times_out : nextIs (consumerMove (.run true) { empty4 with consumer := .bareTake .finite })
    (fun s => decide (s.sig = 0 ∧ s.takeRes = some .timedOut)) = true := by decide

/-- §2.7, `take(forever)` with no permit: the step that blocks is a next state, the one after it Stuck. -/
theorem test_blocked_take_is_stuck :
    (match stepOutcome { empty4 with inbox := [{ Tick.quiet with cons := some (.take .forever) },
                                               { Tick.quiet with cons := some (.run false) }] } with
      | .next s => match stepOutcome s with
        | .stuck t => decide (t.sig = 0 ∧ t.takeRes = none ∧ t.consumer = .bareTake .forever)
        | _ => false
      | _ => false) = true := by decide

/-- §2.7: a `release` first in the same step wakes it, one after its turn does not. -/
theorem test_release_ends_stuck :
    let run : Order → StepOutcome := fun o =>
      stepOutcome { empty4 with consumer := .bareTake .forever,
                                inbox := [{ Tick.quiet with prod := some .release, cons := some (.run false), order := o }] }
    (match run .pcs with | .next s => decide (s.sig = 0 ∧ s.takeRes = some .ok) | _ => false) = true ∧
    (match run .cps with | .stuck s => decide (s.sig = 1 ∧ s.takeRes = none) | _ => false) = true := by decide

/-- §3.5, line 8: the loop test fails with nothing pending, and the routine releases. -/
theorem test_drain_releases : nextIs (producerRuns 2 { empty4 with producer := .testing })
    (fun s => decide (s.sig = 1 ∧ s.producer = .idle)) = true := by decide

/-! ### Words and text -/

/-- §2.5: widths for 1, 16, 256 and 1000 cells. -/
theorem test_widths :
    [1, 16, 256, 1000].map (fun c => (clog2 c, clog2 (c + 1), valueWidth ⟨c, none, none, 1, 1⟩)) =
      [(0, 1, 8), (4, 5, 8), (8, 9, 9), (10, 10, 10)] := by decide

/-- §2.5: the response word of LEN on a full buffer of 16 and of 256 cells. -/
theorem test_response_words :
    (responseWord ⟨16, none, none, 1, 1⟩ (.count 16)).toNat = 0x110 ∧
    (responseWord ⟨256, none, none, 1, 1⟩ (.count 256)).toNat = 0x300 := by decide

/-- 30_encoding.md R70: a quoted `;` is a byte, an unquoted one a comment. -/
theorem test_assemble_comment :
    assembleLine ['P', 'R', 'O', 'D', ':', ' ', 'P', 'U', 'T', ' ', '\'', ';', '\'', ' ', ';', 'x'] =
      some [(.prod, .put 0x3B#8)] := by decide

/-- 30_encoding.md R70: a decimal byte stops at 255. -/
theorem test_assemble_decimal :
    assembleLine ['P', 'R', 'O', 'D', ':', 'P', 'U', 'T', ' ', '2', '5', '5'] = some [(.prod, .put 0xFF#8)] ∧
    assembleLine ['P', 'R', 'O', 'D', ':', 'P', 'U', 'T', ' ', '2', '5', '6'] = none := by decide

/-! ### Witnesses: hypotheses of the statements are met -/

theorem witness_DecodeInvertsEncode :
    Instr.wellFormed (.put 0xFF#8) = true ∧ decode 0x1FF#10 = .command (.put 0xFF#8) := by decide

theorem witness_ReservedWordsAreRefused :
    decode 0x001#10 = .reserved 0x001#10 ∧ decode 0x3FF#10 = .reserved 0x3FF#10 ∧
    empty4.cfg.wellFormed = true ∧
    ({ empty4 with inbox := [wordTick .ctrl 0x001#10] } : State).inbox = wordTick .ctrl 0x001#10 :: [] := by
  decide

theorem witness_RowsSelectCommands :
    0x001#10 &&& 0x3FF#10 ≠ 0x000#10 ∧ 0x001#10 &&& 0x300#10 ≠ 0x100#10 ∧
    0x001#10 &&& 0x3FF#10 ≠ 0x200#10 ∧ 0x001#10 &&& 0x3FF#10 ≠ 0x300#10 := by decide

/-- INIT beside a PUT, presented directly. -/
def initBesidePut : State :=
  { empty4 with inbox := [{ Tick.quiet with prod := some (.word 0x110#10), ctrl := some 0x000#10 }] }

/-- INIT beside a GET of the consumer's routine. -/
def initBesideRoutine : State :=
  { empty4 with consumer := .waitForData .forever,
                inbox := [{ Tick.quiet with cons := some (.run false), ctrl := some 0x000#10, order := .cps }] }

theorem witness_InitResetsRing :
    (wrap4.port = .ctrl ∧ wrap4.dataBusy = false) ∧
    ((empty4.withPort .prod).port = .prod ∨ (empty4.withPort .prod).port = .cons) ∧
    ({ wrap4 with dataBusy := true } : State).dataBusy = true ∧
    (0x01#8 ≠ 0x00#8 ∧ 0xFF#8 ≠ 0x00#8) ∧
    (wrap4.cfg.wellFormed = true ∧ ∃ t, exec .init wrap4 = .next t) ∧
    (prodWord (nextTick initBesidePut) initBesidePut = some 0x110#10 ∧
      decode 0x110#10 = .command (.put 0x10#8)) ∧
    (consWord (nextTick initBesideRoutine) initBesideRoutine = some (encode .get) ∧
      decode (encode .get) = .command .get ∧ (nextTick initBesideRoutine).ctrl = some (encode .init)) :=
  ⟨by decide, by decide, by decide, by decide, ⟨by decide, _, rfl⟩, by decide, by decide⟩

theorem witness_PutStoresOrDrops :
    ((full4.withPort .prod).init = true ∧ (full4.withPort .prod).occ = (full4.withPort .prod).cfg.cap) ∧
    (three4.occ ≠ three4.cfg.cap ∧ three4.wIdx < three4.cfg.cap ∧ three4.wIdx + 1 = three4.cfg.cap) ∧
    (empty4.occ ≠ empty4.cfg.cap ∧ empty4.wIdx < empty4.cfg.cap ∧ empty4.wIdx + 1 ≠ empty4.cfg.cap) ∧
    (three4.Live ∧ ∃ t, exec (.put 0x2A#8) (three4.withPort .prod) = .next t) ∧
    (empty1.Live ∧ ∃ t, exec (.put 0xAB#8) (empty1.withPort .prod) = .next t) ∧
    ((raw4.withPort .prod).port = .prod ∧ raw4.init = false) :=
  ⟨by decide, by decide, by decide, ⟨by decide, _, rfl⟩, ⟨by decide, _, rfl⟩, by decide⟩

theorem witness_GetRemovesOldest :
    ((empty4.withPort .cons).init = true ∧ (empty4.withPort .cons).occ = 0) ∧
    (wrap4.occ ≠ 0 ∧ wrap4.rIdx < wrap4.cfg.cap ∧ wrap4.rIdx + 1 = wrap4.cfg.cap ∧
      Memory.read wrap4.stor wrap4.rIdx = some 0x07#8) ∧
    (last4.occ ≠ 0 ∧ last4.rIdx < last4.cfg.cap ∧ Memory.read last4.stor last4.rIdx = some 0x08#8) ∧
    ((ring 4 0 false 1 false []).occ ≠ 0 ∧ Memory.read (ring 4 0 false 1 false []).stor 0 = none) ∧
    (wrap4.Live ∧ ∃ t, exec .get (wrap4.withPort .cons) = .next t) ∧
    ((raw4.withPort .cons).port = .cons ∧ raw4.init = false) :=
  ⟨by decide, by decide, by decide, by decide, ⟨by decide, _, rfl⟩, by decide⟩

theorem witness_LenReportsCount :
    (wrap4.init = true ∧ (wrap4.withPort .prod).port = .prod) ∧ (wrap4.withPort .cons).port = .cons ∧
    wrap4.port = .ctrl ∧ raw4.init = false ∧ 0x01#8 ≠ 0x00#8 := by decide

theorem witness_PutChangesOnlyItsOwn :
    (∃ t, exec (.put 0x2A#8) (three4.withPort .prod) = .next t) ∧ (0 : Nat) ≠ three4.wIdx ∧
    (∃ t, exec (.put 0x2A#8) (full4.withPort .prod) = .next t) ∧ full4.occ = full4.cfg.cap :=
  ⟨⟨_, rfl⟩, by decide, ⟨_, rfl⟩, by decide⟩

theorem witness_GetChangesOnlyItsOwn :
    (∃ t, exec .get (wrap4.withPort .cons) = .next t) ∧
    (∃ t, exec .get (empty4.withPort .cons) = .next t) ∧ empty4.occ = 0 :=
  ⟨⟨_, rfl⟩, ⟨_, rfl⟩, by decide⟩

theorem witness_InitAndLenFrames : (∃ t, exec .len wrap4 = .next t) ∧ ∃ t, exec .init wrap4 = .next t :=
  ⟨⟨_, rfl⟩, ⟨_, rfl⟩⟩

theorem witness_EveryCommandCompletes :
    wrap4.Live ∧ portAccepts wrap4.port .init = true ∧ wrap4.dataBusy = false ∧
    (wrap4.withPort .prod).Live ∧ portAccepts (wrap4.withPort .prod).port (.put 0x00#8) = true ∧
    (wrap4.withPort .cons).Live ∧ portAccepts (wrap4.withPort .cons).port .get = true :=
  ⟨by decide, by decide, by decide, by decide, by decide, by decide, by decide⟩

theorem witness_WrongPortIsRefused : portAccepts (wrap4.withPort .prod).port .get = false := by decide

theorem witness_BeforeInitOnlyInitRuns :
    raw4.init = false ∧ portAccepts raw4.port .len = true ∧ Instr.len ≠ .init ∧
    portAccepts (raw4.withPort .prod).port (.put 0x01#8) = true ∧ raw4.port = .ctrl ∧
    raw4.dataBusy = false := by decide

theorem witness_ChecksRunInOrder :
    decode 0x201#10 = .reserved 0x201#10 ∧
    (decode 0x200#10 = .command .get ∧ portAccepts .prod .get = false) ∧
    (decode 0x101#10 = .command (.put 0x01#8) ∧ portAccepts .prod (.put 0x01#8) = true ∧ raw4.init = false) ∧
    (decode 0x000#10 = .command .init ∧ portAccepts .ctrl .init = true ∧
      ({ raw4 with dataBusy := true } : State).dataBusy = true) ∧
    (portAccepts .cons .get = true ∧ wrap4.init = true) := by decide

theorem witness_StepRunsDecodedCommand :
    wrap4.cfg.wellFormed = true ∧ decode 0x200#10 = .command .get ∧
    ({ wrap4 with inbox := [wordTick .cons 0x200#10] } : State).inbox = wordTick .cons 0x200#10 :: [] := by
  decide

theorem witness_PlacedCommandRunsNext : wrap4.cfg.wellFormed = true := by decide

theorem witness_QuietStepKeepsState : wrap4.cfg.wellFormed = true ∧ wrap4.inbox = [] := by decide

/-- A PUT, a GET and a LEN in one step, in the order CTRL, CONS, PROD. -/
def threePorts : Tick :=
  { arrivals := [], prod := some (.word (encode (.put 0x55#8))), cons := some (.word (encode .get)),
    ctrl := some (encode .len), order := .scp }

theorem witness_EveryPortOrderIsAdmitted :
    [Port.ctrl, .cons, .prod].Perm [.prod, .cons, .ctrl] ∧ wrap4.cfg.wellFormed = true ∧
    ({ wrap4 with inbox := [threePorts] } : State).inbox = threePorts :: [] ∧
    threePorts.prod = (some (Instr.put 0x55#8)).map (fun i => .word (encode i)) ∧
    threePorts.cons = (some Instr.get).map (fun i => .word (encode i)) ∧
    threePorts.ctrl = (some Instr.len).map encode ∧ some Instr.len ≠ some .init ∧
    threePorts.order.ports = [.ctrl, .cons, .prod] ∧
    ({ threePorts with ctrl := none } : Tick).ctrl = (none : Option Instr).map encode := by decide

theorem witness_OrdersAgreeAwayFromLimits :
    wrap4.Live ∧ wrap4.isEmpty = false ∧ wrap4.isFull = false := by decide

theorem witness_OrdersDifferAtTheLimits :
    (empty4.Live ∧ empty4.isEmpty = true) ∧ (full4.Live ∧ full4.isFull = true) ∧
    (empty1.Live ∧ empty1.isEmpty = true) := ⟨by decide, by decide, by decide⟩

theorem witness_OccupiedCountCases :
    (empty4.rIdx = empty4.wIdx ∧ empty4.rMir = empty4.wMir) ∧
    (full4.rIdx = full4.wIdx ∧ full4.rMir ≠ full4.wMir) ∧ three4.rIdx < three4.wIdx ∧
    wrap4.wIdx < wrap4.rIdx ∧ wrap4.indicesInRange ∧
    ((ring 4 3 false 0 true []).wIdx < (ring 4 3 false 0 true []).rIdx) := by decide

theorem witness_EmptyAndFullByMirrors :
    empty4.indicesInRange ∧ full4.indicesInRange ∧ empty1.indicesInRange ∧ empty1.cfg.cap = 1 := by decide

theorem witness_StatusOutputsFollowState :
    wrap4.init = true ∧ wrap4.Live ∧ ∃ t, step (wrap4.withFetchWord 16 0x200) = .next t ∧ t.init = true :=
  ⟨by decide, by decide, _, rfl, rfl⟩

theorem witness_WidthsAreLeast : (16 : Nat) ≤ 2 ^ 4 ∧ (0 : Nat) ≤ 2 ^ 0 ∧
    (⟨1, none, none, 1, 1⟩ : Config).cap = 1 := by decide

theorem witness_ResponseWordLayout : (4 : Nat) ≤ wrap4.cfg.cap ∧ (0 : Nat) ≤ wrap4.cfg.cap := by decide

theorem witness_RegisterViewLayout : wrap4.indicesInRange ∧ empty1.indicesInRange := by decide

theorem witness_AdvanceWrapsAtCapacity : (3 : Nat) < 4 ∧ (0 : Nat) < 1 ∧ (0 : Nat) < 4 := by decide

theorem witness_MirrorIsLapParity : (1 : Nat) ≤ 1 ∧ (1 : Nat) ≤ 5 := by decide

theorem witness_CellReadsLastWrite : (3 : Nat) < wrap4.cfg.cap ∧ (0 : Nat) ≠ 3 := by decide

theorem witness_PowerOnMeetsInvariant : Config.wellFormed ⟨4, none, some 1, 1, 1⟩ = true := by decide

theorem witness_StepKeepsInvariant :
    (wrap4.withFetchWord 16 0x200).Inv ∧ ∃ t, step (wrap4.withFetchWord 16 0x200) = .next t :=
  ⟨by decide, _, rfl⟩

theorem witness_InvariantGivesCount :
    (three4.Live ∧ three4.wMir = three4.rMir) ∧ (wrap4.Live ∧ wrap4.wMir ≠ wrap4.rMir) ∧ full4.Live :=
  ⟨by decide, by decide, by decide⟩

/-- The producer releases onto a Signal that is at its bound. -/
def overflowing : State :=
  { bounded with producer := .releasing, inbox := [{ Tick.quiet with prod := some .run }] }

theorem witness_OnlySignalOverflowFaults :
    overflowing.Inv ∧ step overflowing = .fault .signalOverflow := ⟨by decide, rfl⟩

theorem witness_ConfigurationAndInitPersist :
    wrap4.init = true ∧ ∃ t, step (wrap4.withFetchWord 16 0x200) = .next t := ⟨by decide, _, rfl⟩

theorem witness_SidesOwnTheirFields :
    (nextTick (wrap4.withFetchWord 16 0x200)).noInit ∧
    prodWord (nextTick (wrap4.withFetchWord 16 0x200)) (wrap4.withFetchWord 16 0x200) = none ∧
    (∃ t, step (wrap4.withFetchWord 16 0x200) = .next t) ∧
    (nextTick (three4.withFetchWord 16 0x12A)).noInit ∧
    consWord (nextTick (three4.withFetchWord 16 0x12A)) (three4.withFetchWord 16 0x12A) = none ∧
    ∃ t, step (three4.withFetchWord 16 0x12A) = .next t :=
  ⟨by unfold Tick.noInit; decide, by decide, ⟨_, rfl⟩, by unfold Tick.noInit; decide, by decide, ⟨_, rfl⟩⟩

theorem witness_PowerOnRegistersAreUnseen :
    raw4.init = false ∧ (∃ t, step (raw4.withFetchWord 16 0x000) = .next t) ∧
    step (raw4.withFetchWord 16 0x300) = .refused .notInitialised := ⟨by decide, ⟨_, rfl⟩, rfl⟩

theorem witness_BlockImplementsQueue : wrap4.Live ∧ wrap4.dataBusy = false := by decide

theorem witness_OverflowKeepsTheFirst : empty4.Live ∧ empty4.isEmpty = true := by decide

/-- One step of a run: the routine puts the byte in hand while another arrives. -/
def draining : State :=
  { wrap4 with producer := .putting 0x41#8, srcQ := [0x42#8],
               inbox := [{ Tick.quiet with arrivals := [0x43#8], prod := some .run,
                                           cons := some (.word 0x200#10) }] }

theorem witness_BytesLeaveInOrder :
    draining.Live ∧ (∀ x ∈ draining.inbox, x.noInit) ∧ ∃ t l, logRun 1 draining = .next (t, l) :=
  ⟨by decide, by unfold Tick.noInit; decide, _, _, rfl⟩

theorem witness_ArrivalsAreDeliveredInOrder :
    draining.Live ∧ (∀ x ∈ draining.inbox, x.noInit ∧ x.noDirectPut) ∧
    ∃ t l, logRun 1 draining = .next (t, l) := by
  refine ⟨by decide, ?_, _, _, rfl⟩
  intro x hx
  have : x = _ := List.mem_singleton.1 hx
  subst this
  exact ⟨by unfold Tick.noInit; decide, fun w b => by simp⟩

theorem witness_ReleaseAddsOnePermit :
    empty4.cfg.sigMax = none ∧
    ({ bounded with sig := 0 } : State).cfg.sigMax = some 1 ∧ ({ bounded with sig := 0 } : State).sig ≠ 1 ∧
    bounded.cfg.sigMax = some 1 ∧ bounded.sig = 1 ∧ ∃ t, release empty4 = .next t :=
  ⟨by decide, by decide, by decide, by decide, by decide, _, rfl⟩

theorem witness_TakeTakesOrBlocks :
    (({ empty4 with sig := 1 } : State).consumer.busy = false ∧ 0 < ({ empty4 with sig := 1 } : State).sig) ∧
    (({ empty4 with consumer := .returned .timedOut } : State).consumer.busy = false ∧ empty4.sig = 0) ∧
    ({ empty4 with sig := 1, consumer := .bareTake .forever } : State).consumer = .bareTake .forever ∧
    ({ empty4 with consumer := .bareTake .finite } : State).consumer = .bareTake .finite ∧
    ({ empty4 with consumer := .bareTake .forever } : State).consumer = .bareTake .forever := by decide

theorem witness_ProducerRoutineSteps :
    (({ draining with producer := .testing } : State).producer = .testing ∧ draining.srcQ ≠ []) ∧
    (({ empty4 with producer := .testing } : State).producer = .testing ∧ empty4.srcQ = []) ∧
    (({ draining with producer := .reading } : State).producer = .reading ∧ draining.srcQ = 0x42#8 :: []) ∧
    draining.producer = .putting 0x41#8 ∧ overflowing.producer = .releasing := by decide

theorem witness_DrainMovesEveryByteReleasesOnce :
    ({ draining with producer := .idle } : State).Live ∧
    ({ draining with producer := .idle } : State).producer = .idle ∧
    draining.cfg.sigMax ≠ some draining.sig := by decide

theorem witness_InterruptStartsIdleRoutineOnly :
    empty4.producer = .idle ∧ draining.producer ≠ .idle := by decide

/-- An interrupt at every step. -/
def alwaysInterrupt (_ : Nat) : Tick := { Tick.quiet with prod := some .interrupt }

/-- A byte pending throughout; the routine starts at the first step. -/
def pendingRun (n : Nat) : State :=
  { empty4 with srcQ := [0x41#8], producer := if n = 0 then .idle else .testing, draws := n }

theorem witness_FairInterruptsStartTheRoutine :
    IsRun alwaysInterrupt pendingRun ∧ interruptFair alwaysInterrupt pendingRun ∧
    ∀ m ≥ 0, (pendingRun m).srcQ ≠ [] := by
  refine ⟨fun n => ?_, fun n _ => ⟨n, le_refl n, rfl⟩, fun m _ => ?_⟩
  · cases n <;> rfl
  · simp [pendingRun]

/-- The producer issues `take`. -/
def producerTakes : State := { empty4 with inbox := [{ Tick.quiet with prod := some (.take .finite) }] }

theorem witness_TakeInInterruptIsRefused :
    producerTakes.cfg.wellFormed = true ∧
    producerTakes.inbox = { Tick.quiet with prod := some (.take .finite) } :: [] := by decide

theorem witness_ConsumerRoutineSteps :
    (empty4.Live ∧ empty4.consumer.busy = false) ∧
    (({ empty4 with consumer := .waitForData .finite } : State).Live ∧ empty4.isEmpty = true) ∧
    (({ wrap4 with consumer := .waitForData .finite } : State).Live ∧ wrap4.isEmpty = false) ∧
    (({ empty4 with sig := 1, consumer := .blockedOnSignal .forever true } : State).Live ∧
      0 < ({ empty4 with sig := 1 } : State).sig) ∧
    (({ empty4 with consumer := .blockedOnSignal .finite true } : State).Live ∧ empty4.sig = 0) ∧
    ({ empty4 with consumer := .blockedOnSignal .finite false } : State).Live ∧
    (({ empty4 with consumer := .blockedOnSignal .forever true } : State).Live ∧ empty4.sig = 0) :=
  ⟨by decide, by decide, by decide, by decide, by decide, by decide, by decide⟩

/-- Blocked for ever, and its own step presented. -/
def stuckRuns : State :=
  { empty4 with consumer := .blockedOnSignal .forever true,
                inbox := [{ Tick.quiet with cons := some (.run false) }] }

theorem witness_StepHasOneOfFourOutcomes :
    (∃ t, stepOutcome stuckRuns = .stuck t) ∧
    (∃ t, stepOutcome { stuckRuns with inbox := [{ Tick.quiet with prod := some .release, cons := some (.run false) }] } =
      .next t) ∧
    stuckRuns.consumerStuck = true ∧ (nextTick stuckRuns).cons = some (.run false) ∧
    ∀ w, ConsMove.run false ≠ .word w :=
  ⟨⟨_, rfl⟩, ⟨_, rfl⟩, by decide, by decide, fun _ => nofun⟩

/-- A blocked consumer, data in the buffer, and the routine about to release. -/
def owed : State :=
  { wrap4 with producer := .releasing, consumer := .blockedOnSignal .forever true,
               inbox := [{ Tick.quiet with prod := some .run }] }

theorem witness_NoWakeUpIsLost :
    owed.wakeOwed ∧ (nextTick owed).noDirectPut ∧ (∃ t, step owed = .next t) ∧
    owed.init = true ∧ owed.blocked = true ∧ owed.isEmpty = false :=
  ⟨fun _ _ _ => .inr (by decide), fun w b => by simp [nextTick, owed], ⟨_, rfl⟩, by decide, by decide,
    by decide⟩

/-- Blocked for ever, no permit. -/
def stuck : State := { empty4 with consumer := .blockedOnSignal .forever true }

theorem witness_StuckConsumerWaitsForRelease :
    stuck.consumerStuck = true ∧ (∃ t, release stuck = .next t) ∧
    ({ empty4 with consumer := .bareTake .forever } : State).consumerStuck = true ∧
    stuckRuns.cfg.wellFormed = true ∧ stuckRuns.consumerStuck = true ∧
    (∀ w, ConsMove.run false ≠ .word w) ∧
    stuckRuns.inbox =
      { arrivals := [], prod := none, cons := some (.run false), ctrl := none, order := .pcs } :: [] :=
  ⟨by decide, ⟨_, rfl⟩, by decide, by decide, by decide, fun _ => nofun, by decide⟩

theorem witness_StepRunsAgentMove :
    owed.cfg.wellFormed = true ∧
    owed.inbox = { arrivals := [], prod := some .run, cons := none, ctrl := none, order := .pcs } :: [] := by
  decide

theorem witness_BadConfigurationsAreRefused :
    (0 : Int) ≤ 0 ∧ (-1 : Int) ≤ 0 ∧ ((1 : Int) ≤ 1 ∧ (1 : Nat) < 2) ∧ ((1 : Int) ≤ 1 ∧ (1 : Nat) ≤ 1) ∧
    ({ empty4 with cfg := ⟨0, none, none, 1, 1⟩ } : State).cfg.cap = 0 ∧
    (({ empty4 with cfg := ⟨5, some 4, none, 1, 1⟩ } : State).cfg.capMax = some 4 ∧ (4 : Nat) < 5) ∧
    (Config.capOk ⟨4, some 4, some 0, 1, 1⟩ = true ∧ Config.capMaxOk ⟨4, some 4, some 0, 1, 1⟩ = true) ∧
    (Config.capOk ⟨4, some 4, some 1, 1, 2⟩ = true ∧ Config.capMaxOk ⟨4, some 4, some 1, 1, 2⟩ = true ∧
      Config.sigMaxOk ⟨4, some 4, some 1, 1, 2⟩ = true) := by decide

/-- A split PUT whose byte is in its cell, beside a split GET that has read. -/
def splitMid : SplitState :=
  { st := { wrap4 with stor := [(0, 8), (1, 9), (3, 7)] }, put := .written 9, get := .fetched 7 }

theorem witness_SplitStagesKeepInvariant : splitMid.Inv ∧ (⟨empty4, .idle, .idle⟩ : SplitState).Inv ∧
    (⟨full4, .idle, .idle⟩ : SplitState).Inv := ⟨by decide, by decide, by decide⟩

theorem witness_SplitCommandsAreAtomic :
    splitMid.Inv ∧ (∃ y, splitStep .putPublish splitMid = .next y) ∧
    splitCompletes .putPublish splitMid = some (.put 9) ∧
    (∃ y, splitStep .getPublish splitMid = .next y) ∧ splitCompletes .getPublish splitMid = some .get ∧
    (∃ y, splitStep .getStart splitMid = .next y) ∧ splitCompletes .getStart splitMid = none :=
  ⟨by decide, ⟨_, rfl⟩, by decide, ⟨_, rfl⟩, by decide, ⟨_, rfl⟩, by decide⟩

end Sys2Proof.Tests
end

/-! PROOFS. The family of 00_scope.md: the widths (R7), the configurations that are refused (R6, R8,
R130), what no step changes (R6, R28), and the four outcomes of a step (R10). -/

namespace Sys2Proof.Machine

open Sys2Proof

/-! ### Widths -/

/-- The search ends at an exponent that suffices, where its fuel reaches one. -/
theorem le_two_pow_clog2From {n : Nat} (fuel k : Nat) (h : n ≤ 2 ^ (k + fuel)) :
    n ≤ 2 ^ clog2From n fuel k := by
  induction fuel generalizing k with
  | zero => exact h
  | succ fuel ih =>
    unfold clog2From
    split_ifs with hk
    · exact hk
    · exact ih (k + 1) (by rwa [Nat.add_right_comm])

/-- The search passes by no exponent that suffices. -/
theorem clog2From_le {n j : Nat} (hj : n ≤ 2 ^ j) (fuel k : Nat) (hk : k ≤ j) :
    clog2From n fuel k ≤ j := by
  induction fuel generalizing k with
  | zero => exact hk
  | succ fuel ih =>
    unfold clog2From
    split_ifs with hn
    · exact hk
    · have hkj : k ≠ j := fun h => hn (h ▸ hj)
      exact ih (k + 1) (by omega)

/-- `2 ^ clog2(n) >= n` (00_scope.md R7): `n` tries are enough, since `n < 2 ^ n`. -/
theorem le_two_pow_clog2 (n : Nat) : n ≤ 2 ^ clog2 n :=
  le_two_pow_clog2From n 0 (by simpa using Nat.lt_two_pow_self.le)

/-- No exponent below `clog2(n)` suffices (00_scope.md R7). -/
theorem clog2_le {n k : Nat} (h : n ≤ 2 ^ k) : clog2 n ≤ k := clog2From_le h n 0 k.zero_le

/-! ### Refused configurations -/

/-- The capacity is checked first (log entry 14). -/
theorem configRefusal_badCapacity {c : Config} (h : c.cap = 0) :
    configRefusal c = some .badCapacity := by
  simp [configRefusal, Config.capOk, h]

/-- The bound on the capacity is checked second (log entry 14). -/
theorem configRefusal_capacityAboveMax {c : Config} {m : Nat} (hc : 1 ≤ c.cap)
    (hm : c.capMax = some m) (h : m < c.cap) : configRefusal c = some .capacityAboveMax := by
  simp [configRefusal, Config.capOk, Config.capMaxOk, hm, show c.cap ≠ 0 by omega, h]

/-- The bound on the Signal is checked third (log entry 14). -/
theorem configRefusal_badSignalMax {c : Config} (hc : c.capOk = true) (hm : c.capMaxOk = true)
    (h : c.sigMax = some 0) : configRefusal c = some .badSignalMax := by
  simp [configRefusal, Config.sigMaxOk, hc, hm, h]

/-- The agents are checked last (60_exceptions.md R130; log entry 14). -/
theorem configRefusal_tooManyAgents {c : Config} (hc : c.capOk = true) (hm : c.capMaxOk = true)
    (hs : c.sigMaxOk = true) (h : 1 < c.producers ∨ 1 < c.consumers) :
    configRefusal c = some .tooManyAgents := by
  have ha : c.agentsOk = false := by
    simp only [Config.agentsOk, Bool.and_eq_false_iff, decide_eq_false_iff_not]
    omega
  simp [configRefusal, hc, hm, hs, ha]

/-- No block is built of a refused configuration. -/
theorem configure_refused {c : Int} {cm sm : Option Nat} {np nc i j : Nat} {m n : Bool}
    {q : List Byte} {r : Refusal} (h : configRefusal ⟨c.toNat, cm, sm, np, nc⟩ = some r) :
    configure c cm sm np nc i m j n q = .refused r := by
  simp [configure, h]

/-- A block is built of every well-formed configuration, and is right after power-on. -/
theorem configure_wellFormed {c : Int} {cm sm : Option Nat} {np nc i j : Nat} {m n : Bool}
    {q : List Byte} (h : Config.wellFormed ⟨c.toNat, cm, sm, np, nc⟩ = true) :
    configure c cm sm np nc i m j n q = .next (State.powerOn ⟨c.toNat, cm, sm, np, nc⟩ i m j n q) := by
  simp [configure, configRefusal_eq_none.2 h]

/-- A state of a refused configuration is not stepped, whatever is presented. -/
theorem step_refused_of_configRefusal {s : State} {r : Refusal} (h : configRefusal s.cfg = some r) :
    step s = .refused r := by
  simp [step, h]

/-! ### What an operation leaves unchanged -/

/-- What every step keeps: the configuration (00_scope.md R6), and `init` once it is true
(10_state.md R28). -/
structure KeepsSetup (s t : State) : Prop where
  cfg : t.cfg = s.cfg
  init : s.init = true → t.init = true

/-- What every operation keeps that is not the consumer's turn: also the mark of a Stuck step. -/
structure KeepsMark (s t : State) : Prop extends KeepsSetup s t where
  stuck : t.stuck = s.stuck

/-- What everything keeps that happens on PROD and CTRL: also the consumer and its `take`, and every
permit; only CONS takes one (60_exceptions.md R117, R118). -/
structure KeepsConsumer (s t : State) : Prop extends KeepsMark s t where
  consumer : t.consumer = s.consumer
  takeRes : t.takeRes = s.takeRes
  sig : s.sig ≤ t.sig

theorem KeepsSetup.trans {s t u : State} (h : KeepsSetup s t) (h' : KeepsSetup t u) :
    KeepsSetup s u where
  cfg := h'.cfg.trans h.cfg
  init := h'.init ∘ h.init

theorem KeepsMark.refl (s : State) : KeepsMark s s := ⟨⟨rfl, id⟩, rfl⟩

theorem KeepsConsumer.refl (s : State) : KeepsConsumer s s := ⟨.refl s, rfl, rfl, le_rfl⟩

theorem KeepsConsumer.trans {s t u : State} (h : KeepsConsumer s t) (h' : KeepsConsumer t u) :
    KeepsConsumer s u where
  toKeepsSetup := h.toKeepsSetup.trans h'.toKeepsSetup
  stuck := h'.stuck.trans h.stuck
  consumer := h'.consumer.trans h.consumer
  takeRes := h'.takeRes.trans h.takeRes
  sig := h.sig.trans h'.sig

/-- A command touches nothing of the environment (20_memory.md R46), and `init` only to set it. -/
theorem exec_keepsConsumer {i : Instr} {s t : State} (h : exec i s = .next t) :
    KeepsConsumer s t := by
  cases i with
  | init =>
    obtain ⟨-, rfl⟩ := execInit_eq_next.1 h
    exact ⟨⟨⟨rfl, fun _ => rfl⟩, rfl⟩, rfl, rfl, le_rfl⟩
  | put b =>
    obtain ⟨-, ⟨-, rfl⟩ | ⟨-, -, rfl⟩⟩ := execPut_eq_next.1 h
    all_goals exact ⟨⟨⟨rfl, id⟩, rfl⟩, rfl, rfl, le_rfl⟩
  | get =>
    obtain ⟨-, ⟨-, rfl⟩ | ⟨-, -, b, -, rfl⟩⟩ := execGet_eq_next.1 h
    all_goals exact ⟨⟨⟨rfl, id⟩, rfl⟩, rfl, rfl, le_rfl⟩
  | len =>
    obtain ⟨-, rfl⟩ := execLen_eq_next.1 h
    exact ⟨⟨⟨rfl, id⟩, rfl⟩, rfl, rfl, le_rfl⟩

/-- An issued word is a command's, and keeps what a command keeps. -/
theorem issue_keepsConsumer {p : Port} {w : Word} {s t : State} (h : issue p w s = .next t) :
    KeepsConsumer s t := by
  obtain ⟨i, -, hi⟩ := issue_eq_next.1 h
  have hp : KeepsConsumer s (s.withPort p) := ⟨⟨⟨rfl, id⟩, rfl⟩, rfl, rfl, le_rfl⟩
  exact hp.trans (exec_keepsConsumer hi)

/-- A `release` only adds a permit (60_exceptions.md R124). -/
theorem release_keepsConsumer {s t : State} (h : release s = .next t) : KeepsConsumer s t := by
  obtain ⟨-, rfl⟩ := release_eq_next.1 h
  exact ⟨⟨⟨rfl, id⟩, rfl⟩, rfl, rfl, Nat.le_succ _⟩

/-- Where the producer routine stands is nothing of the consumer's. -/
theorem KeepsConsumer.withProducer {s t : State} (h : KeepsConsumer s t) (p : Producer) :
    KeepsConsumer s { t with producer := p } :=
  h.trans ⟨⟨⟨rfl, id⟩, rfl⟩, rfl, rfl, le_rfl⟩

/-- The producer routine issues PUTs and releases, and takes nothing of the consumer's. -/
theorem producerRun_keepsConsumer {s t : State} (h : producerRun s = .next t) :
    KeepsConsumer s t := by
  rcases producerRun_eq_next.1 h with
    ⟨-, rfl⟩ | ⟨-, rfl⟩ | ⟨b, q, -, -, rfl⟩ | ⟨b, u, -, hu, rfl⟩ | ⟨u, -, hu, rfl⟩
  · exact .refl t
  · exact (KeepsConsumer.refl s).withProducer _
  · exact ⟨⟨⟨rfl, id⟩, rfl⟩, rfl, rfl, le_rfl⟩
  · exact (issue_keepsConsumer hu).withProducer _
  · exact (release_keepsConsumer hu).withProducer _

/-- A `release` of the producer's outside its routine is one, or is skipped (log entry 15). -/
theorem producerRelease_keepsConsumer {s t : State} (h : producerRelease s = .next t) :
    KeepsConsumer s t := by
  unfold producerRelease at h
  split at h
  · exact release_keepsConsumer h
  all_goals cases h; exact .refl s

/-- No move of the producer's side takes a permit or touches the consumer. -/
theorem producerMove_keepsConsumer {m : ProdMove} {s t : State} (h : producerMove m s = .next t) :
    KeepsConsumer s t := by
  cases m with
  | word w => exact issue_keepsConsumer h
  | interrupt =>
    cases h
    rw [interrupt_eq]
    exact (KeepsConsumer.refl s).withProducer _
  | run => exact producerRun_keepsConsumer h
  | release => exact producerRelease_keepsConsumer h
  | take x => cases h

/-- Every port but CONS leaves the consumer alone. -/
theorem servePort_keepsConsumer {t : Tick} {p : Port} {s u : State} (hp : p ≠ .cons)
    (h : servePort t p s = .next u) : KeepsConsumer s u := by
  cases p with
  | prod =>
    simp only [servePort] at h
    split at h
    · cases h; exact .refl s
    · exact producerMove_keepsConsumer h
  | cons => exact absurd rfl hp
  | ctrl =>
    simp only [servePort] at h
    split at h
    · cases h; exact .refl s
    · exact issue_keepsConsumer h

/-! ### The consumer's moves -/

/-- Whatever an attempt at `take` comes to, it keeps the mark. -/
theorem afterTake_keepsMark (s : State) (r : Option TakeResult) (c : Consumer) :
    KeepsMark s (s.afterTake r c) := ⟨⟨rfl, id⟩, rfl⟩

/-- The consumer's step itself keeps the mark; its turn set it (`State.noteStuck`). -/
theorem consumerRun_keepsMark {e : Bool} {s t : State} (h : consumerRun e s = .next t) :
    KeepsMark s t := by
  rcases consumerRun_eq_next.1 h with
    ⟨-, rfl⟩ | ⟨r, -, rfl⟩ | ⟨x, u, -, hu, rfl⟩ | ⟨x, w, -, rfl⟩ | ⟨x, -, rfl⟩
  · exact .refl t
  · exact .refl t
  · have hkeep := issue_keepsConsumer hu
    exact ⟨⟨hkeep.cfg, hkeep.init⟩, hkeep.stuck⟩
  · exact afterTake_keepsMark s _ _
  · exact afterTake_keepsMark s _ _

/-- A move of the consumer's own is noted as Stuck where it has no enabled step, and keeps the mark
from there on (00_scope.md R10; log entry 17). -/
theorem consumerMove_keepsMark {m : ConsMove} {s t : State} (hm : ∀ w, m ≠ .word w)
    (h : consumerMove m s = .next t) : KeepsMark s.noteStuck t := by
  cases m with
  | word w => exact absurd rfl (hm w)
  | call x =>
    cases h
    unfold consumerCall
    split_ifs
    · exact .refl _
    · exact ⟨⟨rfl, id⟩, rfl⟩
  | run e => exact consumerRun_keepsMark h
  | release =>
    simp only [consumerMove, consumerRelease] at h
    split_ifs at h
    · cases h; exact .refl _
    · exact (release_keepsConsumer h).toKeepsMark
  | take x =>
    cases h
    unfold consumerTake
    split_ifs
    · exact .refl _
    · exact afterTake_keepsMark _ _ _

/-- A consumer that waits without a timeout takes the permit that is there in its next step; any
other move it cannot make leaves the permit (60_exceptions.md R125). -/
theorem consumerMove_permit {m : ConsMove} {s t : State} (hm : ∀ w, m ≠ .word w)
    (hc : s.consumer = .blockedOnSignal .forever true ∨ s.consumer = .bareTake .forever)
    (hsig : 0 < s.sig) (h : consumerMove m s = .next t) : 0 < t.sig ∨ t.takeRes = some .ok := by
  have hb : s.consumer.busy = true := by rcases hc with hc | hc <;> rw [hc] <;> rfl
  cases m with
  | word w => exact absurd rfl (hm w)
  | call x =>
    cases h
    exact .inl (by simpa [consumerCall, hb] using hsig)
  | run e =>
    have hok (x : Timeout) (w : Bool) : takeAttempt x w e s.sig = some .ok := takeAttempt_eq_ok.2 hsig
    have htake : ∃ c, s.noteStuck.afterTake (some .ok) c = t := by
      rcases hc with hc | hc
      · exact ⟨_, by simpa [consumerMove, consumerRun, hc, hok] using h⟩
      · exact ⟨_, by simpa [consumerMove, consumerRun, hc, hok] using h⟩
    obtain ⟨c, rfl⟩ := htake
    exact .inr rfl
  | release =>
    simp only [consumerMove, consumerRelease, noteStuck_consumer, hb, if_true,
      Host.Outcome.next.injEq] at h
    exact .inl (by simpa [← h] using hsig)
  | take x =>
    cases h
    exact .inl (by simpa [consumerTake, hb] using hsig)

/-- What CONS does in a step: nothing, a word issued, or a move of the consumer's own. -/
theorem servePort_cons_eq_next {t : Tick} {s u : State} :
    servePort t .cons s = .next u ↔
      (t.cons = none ∧ u = s) ∨ (∃ w, t.cons = some (.word w) ∧ issue .cons w s = .next u) ∨
      (∃ m, t.cons = some m ∧ (∀ w, m ≠ .word w) ∧ consumerMove m s = .next u) := by
  rcases hc : t.cons with _ | m
  · simp [servePort, hc, eq_comm]
  · cases m <;> simp [servePort, hc, consumerMove]

/-- The mark of a Stuck step is set only at a stuck consumer's own move (log entry 17). -/
theorem servePort_cons_stuck {t : Tick} {s u : State} (h : servePort t .cons s = .next u)
    (h0 : s.stuck = false) (hu : u.stuck = true) :
    s.consumerStuck = true ∧ ∃ m, t.cons = some m ∧ ∀ w, m ≠ .word w := by
  rcases servePort_cons_eq_next.1 h with ⟨-, rfl⟩ | ⟨w, -, hw⟩ | ⟨m, hm, hword, hmove⟩
  · exact absurd (h0.symm.trans hu) Bool.false_ne_true
  · simp [(issue_keepsConsumer hw).stuck, h0] at hu
  · have hstuck := (consumerMove_keepsMark hword hmove).stuck
    exact ⟨by simpa [hu, h0] using hstuck, m, hm, hword⟩

/-- A consumer that waits without a timeout and whose own move is not marked Stuck met a permit. -/
theorem servePort_cons_permit {t : Tick} {s u : State} {m : ConsMove}
    (h : servePort t .cons s = .next u) (hm : t.cons = some m) (hword : ∀ w, m ≠ .word w)
    (hc : s.consumer = .blockedOnSignal .forever true ∨ s.consumer = .bareTake .forever)
    (hu : u.stuck = false) : 0 < u.sig ∨ u.takeRes = some .ok := by
  have hmove : consumerMove m s = .next u := by simpa [servePort, hm] using h
  have hstuck := (consumerMove_keepsMark hword hmove).stuck
  have hsig : s.sig ≠ 0 := fun h0 => by
    simp [hu, consumerStuck_iff.2 ⟨hc, h0⟩] at hstuck
  exact consumerMove_permit hword hc (Nat.pos_of_ne_zero hsig) hmove

/-! ### The ports of a tick -/

/-- The induction over the ports a step serves: what each keeps, all keep one after another. -/
theorem servePorts_rel {R : State → State → Prop} (hrefl : ∀ s, R s s)
    (htrans : ∀ {s t u}, R s t → R t u → R s u) {t : Tick} {ps : List Port}
    (hstep : ∀ p ∈ ps, ∀ s u, servePort t p s = .next u → R s u) {s u : State}
    (h : servePorts t ps s = .next u) : R s u := by
  induction ps generalizing s with
  | nil => cases h; exact hrefl _
  | cons p ps ih =>
    obtain ⟨v, hv, hu⟩ := servePorts_cons_eq_next.1 h
    exact htrans (hstep p List.mem_cons_self s v hv)
      (ih (fun q hq => hstep q (List.mem_cons_of_mem p hq)) hu)

/-- Ports before and after one another. -/
theorem servePorts_append_eq_next {t : Tick} {ps qs : List Port} {s u : State} :
    servePorts t (ps ++ qs) s = .next u ↔
      ∃ v, servePorts t ps s = .next v ∧ servePorts t qs v = .next u := by
  induction ps generalizing s with
  | nil => simp [servePorts]
  | cons p ps ih =>
    simp only [List.cons_append, servePorts_cons_eq_next, ih]
    constructor
    · rintro ⟨a, ha, v, hv, hu⟩
      exact ⟨v, ⟨a, ha, hv⟩, hu⟩
    · rintro ⟨v, ⟨a, ha, hv⟩, hu⟩
      exact ⟨a, ha, v, hv, hu⟩

/-- CONS is served once in every step, in every order. -/
theorem portOrder_split (t : Tick) :
    ∃ ps qs, portOrder t = ps ++ .cons :: qs ∧ .cons ∉ ps ∧ .cons ∉ qs := by
  have hmem : Port.cons ∈ portOrder t := by
    unfold portOrder
    split_ifs <;> cases t.order <;> decide
  have hnodup : (portOrder t).Nodup := by
    unfold portOrder
    split_ifs <;> cases t.order <;> decide
  obtain ⟨ps, qs, hsplit⟩ := List.append_of_mem hmem
  rw [hsplit, List.nodup_middle, List.nodup_cons, List.mem_append, not_or] at hnodup
  exact ⟨ps, qs, hsplit, hnodup.1.1, hnodup.1.2⟩

/-- Ports other than CONS leave the consumer alone, however many are served. -/
theorem servePorts_keepsConsumer {t : Tick} {ps : List Port} (hps : .cons ∉ ps) {s u : State}
    (h : servePorts t ps s = .next u) : KeepsConsumer s u :=
  servePorts_rel .refl .trans
    (fun _ hp _ _ => servePort_keepsConsumer fun hc => hps (hc ▸ hp)) h

/-- A step, seen from the consumer: the other ports around what CONS does, before which the marks
and results of the step before are gone. -/
theorem step_around_cons {s t : State} (h : step s = .next t) :
    ∃ a b, KeepsConsumer (beginTick (nextTick s) (takeTick s)) a ∧
      servePort (nextTick s) .cons a = .next b ∧ KeepsConsumer b t := by
  obtain ⟨-, hrun⟩ := step_eq_next.1 h
  obtain ⟨u, hserve, rfl⟩ := runTick_eq_next.1 hrun
  obtain ⟨ps, qs, hsplit, hps, hqs⟩ := portOrder_split (nextTick s)
  rw [hsplit] at hserve
  obtain ⟨a, hpre, hrest⟩ := servePorts_append_eq_next.1 hserve
  obtain ⟨b, hcons, hpost⟩ := servePorts_cons_eq_next.1 hrest
  have hend : KeepsConsumer u (endTick u) := ⟨⟨⟨rfl, id⟩, rfl⟩, rfl, rfl, le_rfl⟩
  exact ⟨a, b, servePorts_keepsConsumer hps hpre, hcons,
    (servePorts_keepsConsumer hqs hpost).trans hend⟩

/-- CONS keeps the configuration and `init` as the other ports do. -/
theorem servePort_cons_keepsSetup {t : Tick} {s u : State} (h : servePort t .cons s = .next u) :
    KeepsSetup s u := by
  rcases servePort_cons_eq_next.1 h with ⟨-, rfl⟩ | ⟨w, -, hw⟩ | ⟨m, -, hword, hmove⟩
  · exact ⟨rfl, id⟩
  · exact (issue_keepsConsumer hw).toKeepsSetup
  · have hnote : KeepsSetup s s.noteStuck := ⟨rfl, id⟩
    exact hnote.trans (consumerMove_keepsMark hword hmove).toKeepsSetup

/-- Every step keeps the configuration and `init` (00_scope.md R6, 10_state.md R28). -/
theorem step_keepsSetup {s t : State} (h : step s = .next t) : KeepsSetup s t := by
  obtain ⟨a, b, hpre, hcons, hpost⟩ := step_around_cons h
  have hbegin : KeepsSetup s (beginTick (nextTick s) (takeTick s)) := ⟨rfl, id⟩
  exact ((hbegin.trans hpre.toKeepsSetup).trans (servePort_cons_keepsSetup hcons)).trans
    hpost.toKeepsSetup

/-- A step is Stuck only where the consumer was stuck before it and is to make a move of its own:
the ports served earlier can only have added permits. -/
theorem consumerStuck_of_step_stuck {s t : State} (h : step s = .next t) (ht : t.stuck = true) :
    s.consumerStuck = true ∧ ∃ m, (nextTick s).cons = some m ∧ ∀ w, m ≠ .word w := by
  obtain ⟨a, b, hpre, hcons, hpost⟩ := step_around_cons h
  obtain ⟨hstuck, hm⟩ := servePort_cons_stuck hcons hpre.stuck (hpost.stuck ▸ ht)
  obtain ⟨hwait, h0⟩ := consumerStuck_iff.1 hstuck
  have hsig : s.sig = 0 := Nat.eq_zero_of_le_zero (h0 ▸ hpre.sig)
  exact ⟨consumerStuck_iff.2 ⟨hpre.consumer ▸ hwait, hsig⟩, hm⟩

/-- A stuck consumer whose own move is not marked Stuck met a permit, which is there or was taken. -/
theorem permit_of_step_not_stuck {s t : State} {m : ConsMove} (h : step s = .next t)
    (ht : t.stuck = false) (hs : s.consumerStuck = true) (hm : (nextTick s).cons = some m)
    (hword : ∀ w, m ≠ .word w) : 0 < t.sig ∨ t.takeRes = some .ok := by
  obtain ⟨a, b, hpre, hcons, hpost⟩ := step_around_cons h
  have hwait : a.consumer = .blockedOnSignal .forever true ∨ a.consumer = .bareTake .forever :=
    hpre.consumer ▸ (consumerStuck_iff.1 hs).1
  refine (servePort_cons_permit hcons hm hword hwait (hpost.stuck ▸ ht)).imp ?_ ?_
  · exact fun hsig => hsig.trans_le hpost.sig
  · exact hpost.takeRes.trans

/-! ### Outcomes -/

/-- A step whose outcome is a fault (00_scope.md R10). -/
theorem stepOutcome_eq_fault {s : State} {r : Fault} :
    stepOutcome s = .fault r ↔ step s = .fault r := by
  unfold stepOutcome
  cases step s with
  | next u => by_cases hu : u.stuck = true <;> simp [outcomeOf, hu]
  | fault r' => simp [outcomeOf]
  | refused r' => simp [outcomeOf]

/-- A step whose outcome is a refusal (00_scope.md R10). -/
theorem stepOutcome_eq_refused {s : State} {r : Refusal} :
    stepOutcome s = .refused r ↔ step s = .refused r := by
  unfold stepOutcome
  cases step s with
  | next u => by_cases hu : u.stuck = true <;> simp [outcomeOf, hu]
  | fault r' => simp [outcomeOf]
  | refused r' => simp [outcomeOf]

/-! ### The obligations -/

/-- Settles O24: the search for `clog2` stops at the first exponent that suffices. -/
theorem widthsAreLeast : Obligations.WidthsAreLeast := by
  unfold Obligations.WidthsAreLeast
  refine ⟨le_two_pow_clog2, fun n k => clog2_le, fun c => ⟨rfl, rfl, rfl, fun hc => ?_⟩⟩
  have h1 : c.cap ≤ 2 ^ 0 := hc.le
  exact Nat.eq_zero_of_le_zero (clog2_le h1)

/-- Settles O34: each port keeps the configuration and `init`, and so does a step. -/
theorem configurationAndInitPersist : Obligations.ConfigurationAndInitPersist := by
  unfold Obligations.ConfigurationAndInitPersist
  intro s t h
  have hkeep := step_keepsSetup h
  exact ⟨hkeep.cfg, hkeep.init⟩

/-- Settles O58: the mark is cleared at the start of a step and set only at CONS; the ports around it
leave the consumer alone and only add permits. -/
theorem stepHasOneOfFourOutcomes : Obligations.StepHasOneOfFourOutcomes := by
  unfold Obligations.StepHasOneOfFourOutcomes
  intro s
  refine ⟨fun _ => stepOutcome_eq_next, fun _ => stepOutcome_eq_stuck, fun _ => stepOutcome_eq_fault,
    fun _ => stepOutcome_eq_refused, fun t h => ?_, fun t m h hs hm hword => ?_⟩
  · obtain ⟨hstep, ht⟩ := stepOutcome_eq_stuck.1 h
    exact consumerStuck_of_step_stuck hstep ht
  · obtain ⟨hstep, ht⟩ := stepOutcome_eq_next.1 h
    exact permit_of_step_not_stuck hstep ht hs hm hword

/-- Settles O52: the four checks in their order, for `configure` and for `step` alike. -/
theorem badConfigurationsAreRefused : Obligations.BadConfigurationsAreRefused := by
  unfold Obligations.BadConfigurationsAreRefused
  refine ⟨fun c cm sm np nc i j m n q hc => ?_, fun c np nc i j m n q hc ha => ?_,
    fun c np nc i j m n q hc hp hn => ?_, fun s hc => ?_, fun s m hc hm h => ?_,
    fun s hc hm hs => ?_, fun s hc hm hs ha => ?_⟩
  · exact configure_refused (configRefusal_badCapacity (Int.toNat_of_nonpos hc))
  · have hcap : 1 ≤ c.toNat := by omega
    exact configure_refused (configRefusal_tooManyAgents (decide_eq_true hcap) rfl rfl ha)
  · have hcap : 1 ≤ c.toNat := by omega
    exact configure_wellFormed (by simp [Config.wellFormed, Config.capOk, Config.capMaxOk,
      Config.sigMaxOk, Config.agentsOk, hcap, hp, hn])
  · exact step_refused_of_configRefusal (configRefusal_badCapacity hc)
  · exact step_refused_of_configRefusal (configRefusal_capacityAboveMax hc hm h)
  · exact step_refused_of_configRefusal (configRefusal_badSignalMax hc hm hs)
  · exact step_refused_of_configRefusal (configRefusal_tooManyAgents hc hm hs ha)

end Sys2Proof.Machine

/-! PROOFS. The family of 10_state.md: the occupied count by indices and mirrors (R29 to R31), the
occupied window, the invariant of R32 through every operation and every step, what each side owns
(R27), the laps behind the mirrors (R26), and the snapshot views (R35). -/

namespace Sys2Proof.Machine

open Sys2Proof

section

variable {s t : State}

/-! ### The occupied count -/

/-- Equal indices and mirrors: nothing is held (10_state.md R29). -/
theorem occ_eq_zero_of_eq (hidx : s.rIdx = s.wIdx) (hmir : s.rMir = s.wMir) : s.occ = 0 := by
  simp [State.occ, hidx, hmir]

/-- Equal indices and differing mirrors: every cell is held (10_state.md R29). -/
theorem occ_eq_cap_of_ne (hidx : s.rIdx = s.wIdx) (hmir : s.rMir ≠ s.wMir) : s.occ = s.cfg.cap := by
  simp [State.occ, hidx, hmir]

/-- The forward distance where it does not pass the end of the storage (10_state.md R29). -/
theorem occ_of_lt (h : s.rIdx < s.wIdx) : s.occ = s.wIdx - s.rIdx := by
  simp [State.occ, h, h.ne]

/-- The forward distance where it passes the end of the storage (10_state.md R29). -/
theorem occ_of_gt (h : s.wIdx < s.rIdx) : s.occ = s.cfg.cap - (s.rIdx - s.wIdx) := by
  simp [State.occ, h.ne', h.not_gt]

/-- The count never exceeds the capacity, whatever the mirrors (10_state.md R29). -/
theorem occ_le_cap (hr : s.indicesInRange) : s.occ ≤ s.cfg.cap := by
  obtain ⟨-, hw⟩ := hr
  unfold State.occ
  split_ifs <;> omega

/-- Empty by indices and mirrors (10_state.md R30). -/
theorem isEmpty_iff (hr : s.indicesInRange) :
    s.isEmpty = true ↔ s.rIdx = s.wIdx ∧ s.rMir = s.wMir := by
  obtain ⟨hrd, -⟩ := hr
  unfold State.isEmpty State.occ
  rw [decide_eq_true_iff]
  split_ifs with h0 h1 h2
  · simp [h0]
  · simp only [h0, iff_false]
    omega
  · simp only [h0, iff_false]
    omega
  · simp only [h0, iff_false]
    omega

/-- Full by indices and mirrors (10_state.md R31). -/
theorem isFull_iff (hr : s.indicesInRange) :
    s.isFull = true ↔ s.rIdx = s.wIdx ∧ s.rMir ≠ s.wMir := by
  obtain ⟨hrd, hwr⟩ := hr
  unfold State.isFull State.occ
  rw [decide_eq_true_iff]
  split_ifs with h0 h1 h2
  · simp only [h0, ne_eq, not_true_eq_false, and_false, iff_false]
    omega
  · simpa [h1] using h0
  · simp only [h1, false_and, iff_false]
    omega
  · simp only [h1, false_and, iff_false]
    omega

/-- Under the mirror condition the count takes the read index to the write index, a lap of `C`
further on where the mirrors differ (10_state.md R32). -/
theorem rIdx_add_occ (hr : s.indicesInRange) (hm : s.mirrorsMatch) :
    s.rIdx + s.occ = s.wIdx + if s.wMir = s.rMir then 0 else s.cfg.cap := by
  obtain ⟨hrd, -⟩ := hr
  rcases hm with ⟨hmir, hle⟩ | ⟨hmir, hle⟩
  · rw [if_pos hmir]
    rcases hle.eq_or_lt with hidx | hlt
    · rw [occ_eq_zero_of_eq hidx hmir.symm, hidx]
    · rw [occ_of_lt hlt]
      omega
  · rw [if_neg hmir]
    rcases hle.eq_or_lt with hidx | hlt
    · rw [occ_eq_cap_of_ne hidx.symm hmir.symm, hidx]
    · rw [occ_of_gt hlt]
      omega

/-! ### The occupied window -/

/-- The cell behind the occupied window is the one the write index names. -/
theorem windowCell_occ (hr : s.indicesInRange) (hm : s.mirrorsMatch) :
    s.windowCell s.occ = s.wIdx := by
  unfold State.windowCell
  rw [rIdx_add_occ hr hm]
  split_ifs
  · exact Nat.mod_eq_of_lt hr.2
  · rw [Nat.add_mod_right, Nat.mod_eq_of_lt hr.2]

/-- Places less than a lap apart are different cells. -/
theorem windowCell_ne {j k : Nat} (hjk : j < k) (hk : k < s.cfg.cap) :
    s.windowCell j ≠ s.windowCell k := fun h =>
  have hmod : j ≡ k [MOD s.cfg.cap] := Nat.ModEq.add_left_cancel' s.rIdx h
  hjk.ne (hmod.eq_of_lt_of_lt (hjk.trans hk) hk)

/-- Before a write to the cell behind it, the occupied window does not reach that cell. -/
theorem windowCell_ne_wIdx (hr : s.indicesInRange) (hm : s.mirrorsMatch) (hf : s.isFull = false)
    {k : Nat} (hk : k < s.occ) : s.windowCell k ≠ s.wIdx := by
  have hcap : s.occ < s.cfg.cap := lt_of_le_of_ne (occ_le_cap hr) (of_decide_eq_false hf)
  rw [← windowCell_occ hr hm]
  exact windowCell_ne hk hcap

/-- An advance goes to the next index modulo the capacity. -/
theorem advance_fst {cap i : Nat} {m : Bool} (h : i < cap) : (advance cap i m).1 = (i + 1) % cap := by
  unfold advance
  split_ifs with hwrap
  · simp [hwrap]
  · exact (Nat.mod_eq_of_lt (by omega)).symm

/-- After the oldest byte is removed, each place of the window is the next one of the old window. -/
theorem windowCell_advanceRead (hr : s.indicesInRange) (k : Nat) :
    s.advanceRead.windowCell k = s.windowCell (k + 1) := by
  simp only [State.windowCell, advanceRead_rIdx, advanceRead_cfg, advance_fst hr.1, Nat.mod_add_mod,
    Nat.add_assoc, Nat.add_comm 1 k]

/-- The occupied window holds as many bytes as are counted (10_state.md R32). -/
theorem length_contents (hwin : s.windowWritten) : s.contents.length = s.occ := by
  have hall : ∀ k ∈ List.range s.occ, (Memory.read s.stor (s.windowCell k)).isSome = true :=
    fun k hk => hwin k (List.mem_range.1 hk)
  exact (List.filterMap_length_eq_length.2 hall).trans List.length_range

/-! ### The advances and the mirror condition -/

/-- The two ways an advance of the write pair goes while there is room: the next index, or, with
equal mirrors only, the wrap. -/
theorem advanceWrite_cases (hr : s.indicesInRange) (hm : s.mirrorsMatch) (hf : s.isFull = false) :
    (s.advanceWrite.wIdx = s.wIdx + 1 ∧ s.advanceWrite.wMir = s.wMir ∧ s.wIdx + 1 < s.cfg.cap) ∨
    (s.advanceWrite.wIdx = 0 ∧ s.advanceWrite.wMir ≠ s.rMir ∧ s.wMir = s.rMir ∧
      s.wIdx + 1 = s.cfg.cap) := by
  obtain ⟨hrd, hwr⟩ := hr
  by_cases hwrap : s.wIdx + 1 = s.cfg.cap
  · have hmir : s.wMir = s.rMir := by
      rcases hm with ⟨hmir, -⟩ | ⟨hmir, hle⟩
      · exact hmir
      · have hidx : s.rIdx = s.wIdx := by omega
        exact absurd ((isFull_iff ⟨hrd, hwr⟩).2 ⟨hidx, hmir.symm⟩) (by simp [hf])
    exact .inr ⟨by simp [advance, hwrap], by simp [advance, hwrap, hmir], hmir, hwrap⟩
  · exact .inl ⟨by simp [advance, hwrap], by simp [advance, hwrap], by omega⟩

/-- The two ways an advance of the read pair goes while there is data: the next index, or, with
differing mirrors only, the wrap. -/
theorem advanceRead_cases (hr : s.indicesInRange) (hm : s.mirrorsMatch) (he : s.isEmpty = false) :
    (s.advanceRead.rIdx = s.rIdx + 1 ∧ s.advanceRead.rMir = s.rMir ∧ s.rIdx + 1 < s.cfg.cap) ∨
    (s.advanceRead.rIdx = 0 ∧ s.advanceRead.rMir = s.wMir ∧ s.wMir ≠ s.rMir ∧
      s.rIdx + 1 = s.cfg.cap) := by
  obtain ⟨hrd, hwr⟩ := hr
  by_cases hwrap : s.rIdx + 1 = s.cfg.cap
  · have hmir : s.wMir ≠ s.rMir := by
      rcases hm with ⟨hmir, hle⟩ | ⟨hmir, -⟩
      · have hidx : s.rIdx = s.wIdx := by omega
        exact absurd ((isEmpty_iff ⟨hrd, hwr⟩).2 ⟨hidx, hmir.symm⟩) (by simp [he])
      · exact hmir
    exact .inr ⟨by simp [advance, hwrap], by simp [advance, hwrap, Bool.eq_not.2 hmir], hmir, hwrap⟩
  · exact .inl ⟨by simp [advance, hwrap], by simp [advance, hwrap], by omega⟩

/-- With room, an advance of the write pair keeps the mirror condition. -/
theorem mirrorsMatch_advanceWrite (hr : s.indicesInRange) (hm : s.mirrorsMatch)
    (hf : s.isFull = false) : s.advanceWrite.mirrorsMatch := by
  rcases advanceWrite_cases hr hm hf with ⟨hidx, hmir, -⟩ | ⟨hidx, hmir, -, -⟩
  · rcases hm with ⟨heq, hle⟩ | ⟨hne, hle⟩
    · exact .inl ⟨hmir.trans heq, by rw [hidx]; exact hle.trans (Nat.le_succ _)⟩
    · have hlt : s.wIdx ≠ s.rIdx := fun h =>
        absurd ((isFull_iff hr).2 ⟨h.symm, hne.symm⟩) (by simp [hf])
      exact .inr ⟨hmir ▸ hne, by rw [hidx]; exact lt_of_le_of_ne hle hlt⟩
  · exact .inr ⟨hmir, by rw [hidx]; exact Nat.zero_le _⟩

/-- With data, an advance of the read pair keeps the mirror condition. -/
theorem mirrorsMatch_advanceRead (hr : s.indicesInRange) (hm : s.mirrorsMatch)
    (he : s.isEmpty = false) : s.advanceRead.mirrorsMatch := by
  rcases advanceRead_cases hr hm he with ⟨hidx, hmir, -⟩ | ⟨hidx, hmir, -, -⟩
  · rcases hm with ⟨heq, hle⟩ | ⟨hne, hle⟩
    · have hlt : s.rIdx ≠ s.wIdx := fun h =>
        absurd ((isEmpty_iff hr).2 ⟨h, heq.symm⟩) (by simp [he])
      exact .inl ⟨heq.trans hmir.symm, by rw [hidx]; exact lt_of_le_of_ne hle hlt⟩
    · exact .inr ⟨hmir ▸ hne, by rw [hidx]; exact hle.trans (Nat.le_succ _)⟩
  · exact .inl ⟨hmir.symm, by rw [hidx]; exact Nat.zero_le _⟩

/-- An advance of the write pair keeps the indices in range. -/
theorem indicesInRange_advanceWrite (hr : s.indicesInRange) : s.advanceWrite.indicesInRange :=
  ⟨hr.1, advance_lt hr.2⟩

/-- An advance of the read pair keeps the indices in range. -/
theorem indicesInRange_advanceRead (hr : s.indicesInRange) : s.advanceRead.indicesInRange :=
  ⟨advance_lt hr.1, hr.2⟩

/-- With room, an advance of the write pair counts one byte more. -/
theorem occ_advanceWrite (hr : s.indicesInRange) (hm : s.mirrorsMatch) (hf : s.isFull = false) :
    s.advanceWrite.occ = s.occ + 1 := by
  have hold := rIdx_add_occ hr hm
  have hnew := rIdx_add_occ (indicesInRange_advanceWrite hr) (mirrorsMatch_advanceWrite hr hm hf)
  rw [advanceWrite_rIdx, advanceWrite_rMir, advanceWrite_cfg] at hnew
  rcases advanceWrite_cases hr hm hf with ⟨hidx, hmir, -⟩ | ⟨hidx, hmir, heq, hwrap⟩
  · rw [hidx, hmir] at hnew
    omega
  · rw [hidx, if_neg hmir] at hnew
    rw [if_pos heq] at hold
    omega

/-- With data, an advance of the read pair counts one byte less. -/
theorem occ_advanceRead (hr : s.indicesInRange) (hm : s.mirrorsMatch) (he : s.isEmpty = false) :
    s.advanceRead.occ + 1 = s.occ := by
  have hold := rIdx_add_occ hr hm
  have hnew := rIdx_add_occ (indicesInRange_advanceRead hr) (mirrorsMatch_advanceRead hr hm he)
  rw [advanceRead_wIdx, advanceRead_wMir, advanceRead_cfg] at hnew
  rcases advanceRead_cases hr hm he with ⟨hidx, hmir, -⟩ | ⟨hidx, hmir, hne, hwrap⟩
  · rw [hidx, hmir] at hnew
    omega
  · rw [hidx, hmir, if_pos rfl] at hnew
    rw [if_neg hne] at hold
    omega

/-! ### The invariant through the commands -/

/-- A byte stored behind the window joins it; the bytes of the old window stay. -/
theorem windowWritten_advanceWrite {b : Byte} (hr : s.indicesInRange) (hm : s.mirrorsMatch)
    (hwin : s.windowWritten) (hf : s.isFull = false) :
    ({ s with stor := Memory.write s.stor s.wIdx b } : State).advanceWrite.windowWritten := by
  intro k hk
  change k < s.advanceWrite.occ at hk
  rw [occ_advanceWrite hr hm hf] at hk
  change (Memory.read (Memory.write s.stor s.wIdx b) (s.windowCell k)).isSome = true
  rcases Nat.lt_succ_iff_lt_or_eq.1 hk with hlt | rfl
  · rw [memory_read_write_other _ _ (windowCell_ne_wIdx hr hm hf hlt)]
    exact hwin k hlt
  · rw [windowCell_occ hr hm, memory_read_write_same]
    rfl

/-- Without its oldest byte the window is still written. -/
theorem windowWritten_advanceRead (hr : s.indicesInRange) (hm : s.mirrorsMatch)
    (hwin : s.windowWritten) (he : s.isEmpty = false) : s.advanceRead.windowWritten := by
  intro k hk
  have hk' : k + 1 < s.occ := by
    have := occ_advanceRead hr hm he
    omega
  rw [windowCell_advanceRead hr]
  exact hwin (k + 1) hk'

/-- A write to an existing cell keeps the storage canonical and within its cells. -/
theorem storageOk_write {a : Nat} {b : Byte} (ha : a < s.cfg.cap) (hs : s.storageOk) :
    ({ s with stor := Memory.write s.stor a b } : State).storageOk := by
  obtain ⟨hwf, hcells⟩ := hs
  refine ⟨memory_write_wf a b hwf, fun c hc => ?_⟩
  rcases memory_mem_write hc with rfl | hc
  · exact ha
  · exact hcells c hc

/-- The cleared ring of INIT meets the invariant: one empty lap of a storage with a cell. -/
theorem ringOk_clearRing (h : s.cfg.wellFormed = true) : s.clearRing.ringOk := by
  have hcap : 0 < s.cfg.cap := by
    simp only [Config.wellFormed, Config.capOk, Bool.and_eq_true, decide_eq_true_eq] at h
    omega
  have hocc : s.clearRing.occ = 0 := occ_eq_zero_of_eq rfl rfl
  exact fun _ => ⟨⟨hcap, hcap⟩, .inl ⟨rfl, le_rfl⟩, fun k hk => absurd hk (by simp [hocc])⟩

/-- Before any command but INIT answers, the ring has been initialised (70_reset_and_hazards.md
R151). -/
theorem init_of_commandRefusal {i : Instr} (h : commandRefusal i s = none) (hi : i ≠ .init) :
    s.init = true := by
  obtain ⟨-, hinit, -⟩ := commandRefusal_eq_none.1 h
  exact hinit hi

/-- PUT keeps the invariant. -/
theorem execPut_inv {b : Byte} (h : execPut b s = .next t) (hs : s.Inv) : t.Inv := by
  obtain ⟨hwf, hstor, hring, hsig, hprod⟩ := hs
  obtain ⟨hcheck, ⟨-, rfl⟩ | ⟨hf, hw, rfl⟩⟩ := execPut_eq_next.1 h
  · exact ⟨hwf, hstor, hring, hsig, hprod⟩
  · obtain ⟨hr, hm, hwin⟩ := hring (init_of_commandRefusal hcheck nofun)
    exact ⟨hwf, storageOk_write hw hstor, fun _ => ⟨indicesInRange_advanceWrite hr,
      mirrorsMatch_advanceWrite hr hm hf, windowWritten_advanceWrite hr hm hwin hf⟩, hsig, hprod⟩

/-- GET keeps the invariant. -/
theorem execGet_inv (h : execGet s = .next t) (hs : s.Inv) : t.Inv := by
  obtain ⟨hwf, hstor, hring, hsig, hprod⟩ := hs
  obtain ⟨hcheck, ⟨-, rfl⟩ | ⟨he, -, b, -, rfl⟩⟩ := execGet_eq_next.1 h
  · exact ⟨hwf, hstor, hring, hsig, hprod⟩
  · obtain ⟨hr, hm, hwin⟩ := hring (init_of_commandRefusal hcheck nofun)
    exact ⟨hwf, hstor, fun _ => ⟨indicesInRange_advanceRead hr, mirrorsMatch_advanceRead hr hm he,
      windowWritten_advanceRead hr hm hwin he⟩, hsig, hprod⟩

/-- Every command keeps the invariant. -/
theorem exec_inv {i : Instr} (h : exec i s = .next t) (hs : s.Inv) : t.Inv := by
  cases i with
  | init =>
    obtain ⟨hwf, -, -, hsig, hprod⟩ := hs
    obtain ⟨-, rfl⟩ := execInit_eq_next.1 h
    exact ⟨hwf, ⟨memory_nil_wf, nofun⟩, ringOk_clearRing hwf, hsig, hprod⟩
  | put b => exact execPut_inv h hs
  | get => exact execGet_inv h hs
  | len =>
    obtain ⟨-, rfl⟩ := execLen_eq_next.1 h
    exact hs

/-- Every word issued keeps the invariant. -/
theorem issue_inv {p : Port} {w : Word} (h : issue p w s = .next t) (hs : s.Inv) : t.Inv := by
  obtain ⟨i, -, hi⟩ := issue_eq_next.1 h
  have hport : (s.withPort p).Inv := hs
  exact exec_inv hi hport

/-! ### The invariant through the agents' moves -/

/-- A `release` that goes on found the Signal below its bound (60_exceptions.md R124). -/
theorem release_inv (h : release s = .next t) (hs : s.Inv) : t.Inv := by
  obtain ⟨hwf, hstor, hring, hsig, hprod⟩ := hs
  obtain ⟨hbound, rfl⟩ := release_eq_next.1 h
  refine ⟨hwf, hstor, hring, fun m hm => ?_, hprod⟩
  have hne : s.sig ≠ m := fun he => hbound (he ▸ hm)
  exact lt_of_le_of_ne (hsig m hm) hne

/-- An attempt at `take` never adds a permit (60_exceptions.md R125). -/
theorem sigAfterTake_le (n : Nat) (r : Option TakeResult) : sigAfterTake n r ≤ n := by
  rcases r with _ | _ | _
  · exact le_rfl
  · exact Nat.sub_le n 1
  · exact le_rfl

/-- An attempt at `take` keeps the invariant. -/
theorem afterTake_inv {r : Option TakeResult} {c : Consumer} (hs : s.Inv) : (s.afterTake r c).Inv := by
  obtain ⟨hwf, hstor, hring, hsig, hprod⟩ := hs
  exact ⟨hwf, hstor, hring, fun m hm => (sigAfterTake_le s.sig r).trans (hsig m hm), hprod⟩

/-- Where the producer routine goes, the invariant asks only that a read finds a byte. -/
theorem State.Inv.withProducer {p : Producer} (hs : s.Inv) (hp : p = .reading → s.srcQ ≠ []) :
    ({ s with producer := p } : State).Inv := by
  obtain ⟨hwf, hstor, hring, hsig, -⟩ := hs
  exact ⟨hwf, hstor, hring, hsig, hp⟩

/-- The producer routine keeps the invariant: it reads only after its test found a byte. -/
theorem producerRun_inv (h : producerRun s = .next t) (hs : s.Inv) : t.Inv := by
  rcases producerRun_eq_next.1 h with
    ⟨-, rfl⟩ | ⟨-, rfl⟩ | ⟨b, q, -, -, rfl⟩ | ⟨b, u, -, hu, rfl⟩ | ⟨u, -, hu, rfl⟩
  · exact hs
  · exact hs.withProducer fun hp hq => by simp [hq] at hp
  · obtain ⟨hwf, hstor, hring, hsig, -⟩ := hs
    exact ⟨hwf, hstor, hring, hsig, nofun⟩
  · exact (issue_inv hu hs).withProducer nofun
  · exact (release_inv hu hs).withProducer nofun

/-- Every move of the producer's side keeps the invariant. -/
theorem producerMove_inv {m : ProdMove} (h : producerMove m s = .next t) (hs : s.Inv) : t.Inv := by
  cases m with
  | word w => exact issue_inv h hs
  | interrupt =>
    cases h
    obtain ⟨-, -, -, -, hprod⟩ := id hs
    rw [interrupt_eq]
    refine hs.withProducer fun hp => ?_
    split_ifs at hp
    exact hprod hp
  | run => exact producerRun_inv h hs
  | release =>
    simp only [producerMove, producerRelease] at h
    split at h
    · exact release_inv h hs
    all_goals cases h; exact hs
  | take x => cases h

/-- The consumer's step keeps the invariant. -/
theorem consumerRun_inv {e : Bool} (h : consumerRun e s = .next t) (hs : s.Inv) : t.Inv := by
  rcases consumerRun_eq_next.1 h with
    ⟨-, rfl⟩ | ⟨r, -, rfl⟩ | ⟨x, u, -, hu, rfl⟩ | ⟨x, w, -, rfl⟩ | ⟨x, -, rfl⟩
  · exact hs
  · exact hs
  · have hget : u.Inv := issue_inv hu hs
    exact hget
  · exact afterTake_inv hs
  · exact afterTake_inv hs

/-- Every move of the consumer's side keeps the invariant. -/
theorem consumerMove_inv {m : ConsMove} (h : consumerMove m s = .next t) (hs : s.Inv) : t.Inv := by
  have hnote : s.noteStuck.Inv := hs
  cases m with
  | word w => exact issue_inv h hs
  | call x =>
    cases h
    unfold consumerCall
    split_ifs
    · exact hnote
    · exact hnote
  | run e => exact consumerRun_inv h hnote
  | release =>
    simp only [consumerMove, consumerRelease] at h
    split_ifs at h
    · cases h; exact hnote
    · exact release_inv h hnote
  | take x =>
    cases h
    unfold consumerTake
    split_ifs
    · exact hnote
    · exact afterTake_inv hnote

/-! ### The invariant through a step -/

/-- What a port does in a step keeps the invariant. -/
theorem servePort_inv {k : Tick} {p : Port} (h : servePort k p s = .next t) (hs : s.Inv) : t.Inv := by
  cases p with
  | prod =>
    simp only [servePort] at h
    split at h
    · cases h; exact hs
    · exact producerMove_inv h hs
  | cons =>
    simp only [servePort] at h
    split at h
    · cases h; exact hs
    · exact consumerMove_inv h hs
  | ctrl =>
    simp only [servePort] at h
    split at h
    · cases h; exact hs
    · exact issue_inv h hs

/-- The start of a step keeps the invariant: arrivals take no byte away. -/
theorem beginTick_inv {k : Tick} (hs : s.Inv) : (beginTick k s).Inv := by
  obtain ⟨hwf, hstor, hring, hsig, hprod⟩ := hs
  exact ⟨hwf, hstor, hring, hsig, fun hp => List.append_ne_nil_of_left_ne_nil (hprod hp) _⟩

/-- A tick keeps the invariant, whatever it presents and in whatever order (10_state.md R32). -/
theorem runTick_inv {k : Tick} (h : runTick k s = .next t) (hs : s.Inv) : t.Inv := by
  obtain ⟨u, hserve, rfl⟩ := runTick_eq_next.1 h
  have hports : (beginTick k s).Inv → u.Inv :=
    @servePorts_rel (fun a b => a.Inv → b.Inv) (fun _ => id) (fun hab hbc => hbc ∘ hab) _ _
      (fun _ _ _ _ => servePort_inv) _ _ hserve
  exact hports (beginTick_inv hs)

/-! ### What each side owns -/

/-- What the write side owns (10_state.md R27): the storage and the write pair. -/
def State.writeSide (s : State) : Memory × Nat × Bool := (s.stor, s.wIdx, s.wMir)

/-- What the read side owns (10_state.md R27): the read pair. -/
def State.readSide (s : State) : Nat × Bool := (s.rIdx, s.rMir)

/-- The registers and the storage of the ring: what both sides own. -/
def State.ring (s : State) : (Memory × Nat × Bool) × Nat × Bool := (s.writeSide, s.readSide)

/-- The write side is kept exactly when its three parts are. -/
theorem writeSide_eq_iff :
    t.writeSide = s.writeSide ↔ t.stor = s.stor ∧ t.wIdx = s.wIdx ∧ t.wMir = s.wMir := by
  simp [State.writeSide]

/-- The read side is kept exactly when its two parts are. -/
theorem readSide_eq_iff : t.readSide = s.readSide ↔ t.rIdx = s.rIdx ∧ t.rMir = s.rMir := by
  simp [State.readSide]

/-- The ring is kept exactly when both sides are. -/
theorem ring_eq_iff : t.ring = s.ring ↔ t.writeSide = s.writeSide ∧ t.readSide = s.readSide := by
  simp [State.ring]

/-- A command that answers was on a port that accepts it (30_encoding.md R67). -/
theorem exec_accepted {i : Instr} (h : exec i s = .next t) : portAccepts s.port i = true := by
  have hcheck : commandRefusal i s = none := by
    cases i with
    | init => exact (execInit_eq_next.1 h).1
    | put b => exact (execPut_eq_next.1 h).1
    | get => exact (execGet_eq_next.1 h).1
    | len => exact (execLen_eq_next.1 h).1
  exact (commandRefusal_eq_none.1 hcheck).1

/-- PUT is accepted on PROD only (30_encoding.md R60). -/
theorem portAccepts_put {p : Port} {b : Byte} : portAccepts p (.put b) = true ↔ p = .prod := by
  cases p <;> simp [portAccepts]

/-- GET is accepted on CONS only (30_encoding.md R60). -/
theorem portAccepts_get {p : Port} : portAccepts p .get = true ↔ p = .cons := by
  cases p <;> simp [portAccepts]

/-- PUT leaves the read side alone. -/
theorem execPut_readSide {b : Byte} (h : execPut b s = .next t) : t.readSide = s.readSide := by
  obtain ⟨-, ⟨-, rfl⟩ | ⟨-, -, rfl⟩⟩ := execPut_eq_next.1 h
  · rfl
  · rfl

/-- GET leaves the write side alone. -/
theorem execGet_writeSide (h : execGet s = .next t) : t.writeSide = s.writeSide := by
  obtain ⟨-, ⟨-, rfl⟩ | ⟨-, -, b, -, rfl⟩⟩ := execGet_eq_next.1 h
  · rfl
  · rfl

/-- LEN leaves the ring alone. -/
theorem execLen_ring (h : execLen s = .next t) : t.ring = s.ring := by
  obtain ⟨-, rfl⟩ := execLen_eq_next.1 h
  rfl

/-- A word that answers on PROD is a PUT or LEN, and leaves the read side alone. -/
theorem issue_prod_readSide {w : Word} (h : issue .prod w s = .next t) : t.readSide = s.readSide := by
  obtain ⟨i, -, hi⟩ := issue_eq_next.1 h
  have hport : portAccepts .prod i = true := exec_accepted hi
  cases i with
  | init => cases hport
  | put b => exact (execPut_readSide hi : t.readSide = (s.withPort .prod).readSide)
  | get => cases hport
  | len => exact (ring_eq_iff.1 (execLen_ring hi)).2

/-- A word that answers on CONS is GET or LEN, and leaves the write side alone. -/
theorem issue_cons_writeSide {w : Word} (h : issue .cons w s = .next t) :
    t.writeSide = s.writeSide := by
  obtain ⟨i, -, hi⟩ := issue_eq_next.1 h
  have hport : portAccepts .cons i = true := exec_accepted hi
  cases i with
  | init => cases hport
  | put b => cases hport
  | get => exact (execGet_writeSide hi : t.writeSide = (s.withPort .cons).writeSide)
  | len => exact (ring_eq_iff.1 (execLen_ring hi)).1

/-- A word that answers on CTRL and is no INIT is LEN, and leaves the ring alone. -/
theorem issue_ctrl_ring {w : Word} (h : issue .ctrl w s = .next t) (hw : decode w ≠ .command .init) :
    t.ring = s.ring := by
  obtain ⟨i, hd, hi⟩ := issue_eq_next.1 h
  have hport : portAccepts .ctrl i = true := exec_accepted hi
  cases i with
  | init => exact absurd hd hw
  | put b => cases hport
  | get => cases hport
  | len => exact (execLen_ring hi : t.ring = (s.withPort .ctrl).ring)

/-- No command moves the producer routine (20_memory.md R46). -/
theorem issue_producer {p : Port} {w : Word} (h : issue p w s = .next t) :
    t.producer = s.producer := by
  obtain ⟨i, -, hi⟩ := issue_eq_next.1 h
  cases i with
  | init =>
    obtain ⟨-, rfl⟩ := execInit_eq_next.1 hi
    rfl
  | put b =>
    obtain ⟨-, ⟨-, rfl⟩ | ⟨-, -, rfl⟩⟩ := execPut_eq_next.1 hi
    all_goals rfl
  | get =>
    obtain ⟨-, ⟨-, rfl⟩ | ⟨-, -, b, -, rfl⟩⟩ := execGet_eq_next.1 hi
    all_goals rfl
  | len =>
    obtain ⟨-, rfl⟩ := execLen_eq_next.1 hi
    rfl

/-- A word is its two fields. -/
theorem opField_append_dataField (w : Word) : opField w ++ dataField w = w :=
  (BitVec.extractLsb'_append_extractLsb'_eq_extractLsb' rfl).trans BitVec.extractLsb'_eq_self

/-- Only INIT's own word decodes to INIT (30_encoding.md R62). -/
theorem eq_encode_init_of_decode {w : Word} (h : decode w = .command .init) : w = encode .init := by
  unfold decode at h
  split at h
  next hop =>
    split_ifs at h with hdata
    have hzero : opField w = 0b00#2 := BitVec.eq_of_toNat_eq hop
    rw [← opField_append_dataField w, hzero, hdata]
    rfl
  next => cases h
  next =>
    split_ifs at h
    cases h
  next =>
    split_ifs at h
    cases h

/-- A `release` leaves the ring and the producer routine alone. -/
theorem release_ring (h : release s = .next t) : t.ring = s.ring ∧ t.producer = s.producer := by
  obtain ⟨-, rfl⟩ := release_eq_next.1 h
  exact ⟨rfl, rfl⟩

/-- What PROD does to the ring in a step: nothing without a word, else what the word standing on it
does. -/
theorem servePort_prod_ring {k : Tick} (h : servePort k .prod s = .next t) :
    (prodWord k s = none ∧ t.ring = s.ring) ∨
    ∃ w v, prodWord k s = some w ∧ issue .prod w s = .next v ∧ t.ring = v.ring := by
  rcases hk : k.prod with _ | m
  · simp only [servePort, hk, Host.Outcome.next.injEq] at h
    exact .inl ⟨by simp [prodWord, hk], h ▸ rfl⟩
  have hmove : producerMove m s = .next t := by simpa [servePort, hk] using h
  cases m with
  | word w => exact .inr ⟨w, t, by simp [prodWord, hk], hmove, rfl⟩
  | interrupt =>
    cases hmove
    exact .inl ⟨by simp [prodWord, hk], by rw [interrupt_eq]; rfl⟩
  | run =>
    rcases producerRun_eq_next.1 hmove with
      ⟨hp, rfl⟩ | ⟨hp, rfl⟩ | ⟨b, q, hp, -, rfl⟩ | ⟨b, v, hp, hv, rfl⟩ | ⟨v, hp, hv, rfl⟩
    · exact .inl ⟨by simp [prodWord, hk, hp], rfl⟩
    · exact .inl ⟨by simp [prodWord, hk, hp], rfl⟩
    · exact .inl ⟨by simp [prodWord, hk, hp], rfl⟩
    · exact .inr ⟨encode (.put b), v, by simp [prodWord, hk, hp], hv, rfl⟩
    · exact .inl ⟨by simp [prodWord, hk, hp], (release_ring hv).1⟩
  | release =>
    refine .inl ⟨by simp [prodWord, hk], ?_⟩
    simp only [producerMove, producerRelease] at hmove
    split at hmove
    · exact (release_ring hmove).1
    all_goals cases hmove; rfl
  | take x => cases hmove

/-- What CONS does to the ring in a step: nothing without a word, else what the word standing on it
does. The producer routine it leaves alone. -/
theorem servePort_cons_ring {k : Tick} (h : servePort k .cons s = .next t) :
    t.producer = s.producer ∧
    ((consWord k s = none ∧ t.ring = s.ring) ∨
     ∃ w v, consWord k s = some w ∧ issue .cons w s = .next v ∧ t.ring = v.ring) := by
  rcases servePort_cons_eq_next.1 h with ⟨hk, rfl⟩ | ⟨w, hk, hw⟩ | ⟨m, hk, hword, hmove⟩
  · exact ⟨rfl, .inl ⟨by simp [consWord, hk], rfl⟩⟩
  · exact ⟨issue_producer hw, .inr ⟨w, t, by simp [consWord, hk], hw, rfl⟩⟩
  cases m with
  | word w => exact absurd rfl (hword w)
  | call x =>
    cases hmove
    unfold consumerCall
    split_ifs
    all_goals exact ⟨rfl, .inl ⟨by simp [consWord, hk], rfl⟩⟩
  | run e =>
    rcases consumerRun_eq_next.1 hmove with
      ⟨hc, rfl⟩ | ⟨r, hc, rfl⟩ | ⟨x, v, hc, hv, rfl⟩ | ⟨x, w, hc, rfl⟩ | ⟨x, hc, rfl⟩
    all_goals rw [noteStuck_consumer] at hc
    · exact ⟨rfl, .inl ⟨by simp [consWord, hk, hc], rfl⟩⟩
    · exact ⟨rfl, .inl ⟨by simp [consWord, hk, hc], rfl⟩⟩
    · have hfree : s.consumerStuck = false := by simp [State.consumerStuck, hc]
      rw [noteStuck_eq_self s hfree] at hv
      have hprod : v.producer = s.producer := issue_producer hv
      exact ⟨hprod, .inr ⟨encode .get, v, by simp [consWord, hk, hc], hv, rfl⟩⟩
    · exact ⟨rfl, .inl ⟨by simp [consWord, hk, hc], rfl⟩⟩
    · exact ⟨rfl, .inl ⟨by simp [consWord, hk, hc], rfl⟩⟩
  | release =>
    have hnone : consWord k s = none := by simp [consWord, hk]
    simp only [consumerMove, consumerRelease] at hmove
    split_ifs at hmove
    · cases hmove
      exact ⟨rfl, .inl ⟨hnone, rfl⟩⟩
    · obtain ⟨hring, hprod⟩ := release_ring hmove
      exact ⟨hprod, .inl ⟨hnone, hring⟩⟩
  | take x =>
    cases hmove
    unfold consumerTake
    split_ifs
    all_goals exact ⟨rfl, .inl ⟨by simp [consWord, hk], rfl⟩⟩

/-- In a tick without INIT, CTRL leaves the ring and both routines alone. -/
theorem servePort_ctrl_ring {k : Tick} (hk : k.noInit) (h : servePort k .ctrl s = .next t) :
    t.ring = s.ring ∧ t.producer = s.producer := by
  rcases hc : k.ctrl with _ | w
  · simp only [servePort, hc, Host.Outcome.next.injEq] at h
    exact h ▸ ⟨rfl, rfl⟩
  · simp only [servePort, hc] at h
    have hw : decode w ≠ .command .init := fun hd => hk (hc.trans (by rw [eq_encode_init_of_decode hd]))
    exact ⟨issue_ctrl_ring h hw, issue_producer h⟩

/-- In a tick without INIT, every port but PROD leaves the write side and the producer routine
alone. -/
theorem servePort_writeSide {k : Tick} (hk : k.noInit) {p : Port} (hp : p ≠ .prod)
    (h : servePort k p s = .next t) : t.writeSide = s.writeSide ∧ t.producer = s.producer := by
  cases p with
  | prod => exact absurd rfl hp
  | cons =>
    obtain ⟨hprod, ⟨-, hring⟩ | ⟨w, v, -, hw, hring⟩⟩ := servePort_cons_ring h
    · exact ⟨(ring_eq_iff.1 hring).1, hprod⟩
    · exact ⟨(ring_eq_iff.1 hring).1.trans (issue_cons_writeSide hw), hprod⟩
  | ctrl =>
    obtain ⟨hring, hprod⟩ := servePort_ctrl_ring hk h
    exact ⟨(ring_eq_iff.1 hring).1, hprod⟩

/-- In a tick without INIT, every port but CONS leaves the read side and the consumer alone. -/
theorem servePort_readSide {k : Tick} (hk : k.noInit) {p : Port} (hp : p ≠ .cons)
    (h : servePort k p s = .next t) : t.readSide = s.readSide ∧ t.consumer = s.consumer := by
  refine ⟨?_, (servePort_keepsConsumer hp h).consumer⟩
  cases p with
  | prod =>
    obtain ⟨-, hring⟩ | ⟨w, v, -, hw, hring⟩ := servePort_prod_ring h
    · exact (ring_eq_iff.1 hring).2
    · exact (ring_eq_iff.1 hring).2.trans (issue_prod_readSide hw)
  | cons => exact absurd rfl hp
  | ctrl => exact (ring_eq_iff.1 (servePort_ctrl_ring hk h).1).2

/-- Every port is served once in every step, in every order. -/
theorem portOrder_split_at (k : Tick) (p : Port) :
    ∃ ps qs, portOrder k = ps ++ p :: qs ∧ p ∉ ps ∧ p ∉ qs := by
  have hmem : p ∈ portOrder k := by
    unfold portOrder
    split_ifs <;> cases p <;> cases k.order <;> decide
  have hnodup : (portOrder k).Nodup := by
    unfold portOrder
    split_ifs <;> cases k.order <;> decide
  obtain ⟨ps, qs, hsplit⟩ := List.append_of_mem hmem
  rw [hsplit, List.nodup_middle, List.nodup_cons, List.mem_append, not_or] at hnodup
  exact ⟨ps, qs, hsplit, hnodup.1.1, hnodup.1.2⟩

/-- What all ports but one leave alone, together with what decides the move of that one (`owner`), a
step leaves alone where that one port does. -/
theorem step_keeps_side {α β : Type} {side : State → α} {owner : State → β} {p : Port}
    (hother : ∀ q ≠ p, ∀ a b, servePort (nextTick s) q a = .next b →
      side b = side a ∧ owner b = owner a)
    (hown : ∀ a b, owner a = owner (beginTick (nextTick s) (takeTick s)) →
      servePort (nextTick s) p a = .next b → side b = side a)
    (h : step s = .next t) :
    ∃ u, side u = side (beginTick (nextTick s) (takeTick s)) ∧ t = endTick u := by
  obtain ⟨-, hrun⟩ := step_eq_next.1 h
  obtain ⟨u, hserve, rfl⟩ := runTick_eq_next.1 hrun
  obtain ⟨ps, qs, hsplit, hps, hqs⟩ := portOrder_split_at (nextTick s) p
  rw [hsplit] at hserve
  obtain ⟨a, hpre, hrest⟩ := servePorts_append_eq_next.1 hserve
  obtain ⟨b, hport, hpost⟩ := servePorts_cons_eq_next.1 hrest
  have hothers {rs : List Port} (hrs : p ∉ rs) {x y : State}
      (hxy : servePorts (nextTick s) rs x = .next y) : side y = side x ∧ owner y = owner x :=
    @servePorts_rel (fun x y => side y = side x ∧ owner y = owner x) (fun _ => ⟨rfl, rfl⟩)
      (fun h1 h2 => ⟨h2.1.trans h1.1, h2.2.trans h1.2⟩) _ _
      (fun q hq => hother q fun hqp => hrs (hqp ▸ hq)) _ _ hxy
  obtain ⟨hside, howner⟩ := hothers hps hpre
  exact ⟨u, ((hothers hqs hpost).1.trans (hown a b howner hport)).trans hside, rfl⟩

/-- Without INIT and without a word on PROD, a step leaves the write side alone (10_state.md R27). -/
theorem step_writeSide (h : step s = .next t) (hk : (nextTick s).noInit)
    (hword : prodWord (nextTick s) s = none) : t.writeSide = s.writeSide := by
  have hown (a b : State) (ha : a.producer = s.producer)
      (hab : servePort (nextTick s) .prod a = .next b) : b.writeSide = a.writeSide := by
    have hnone : prodWord (nextTick s) a = none := by rw [← hword, prodWord, prodWord, ha]
    obtain ⟨-, hring⟩ | ⟨w, v, hw, -⟩ := servePort_prod_ring hab
    · exact (ring_eq_iff.1 hring).1
    · exact absurd (hw.symm.trans hnone) nofun
  obtain ⟨u, hside, rfl⟩ := step_keeps_side (fun q hq a b => servePort_writeSide hk hq) hown h
  exact hside

/-- Without INIT and without a word on CONS, a step leaves the read side alone (10_state.md R27). -/
theorem step_readSide (h : step s = .next t) (hk : (nextTick s).noInit)
    (hword : consWord (nextTick s) s = none) : t.readSide = s.readSide := by
  have hown (a b : State) (ha : a.consumer = s.consumer)
      (hab : servePort (nextTick s) .cons a = .next b) : b.readSide = a.readSide := by
    have hnone : consWord (nextTick s) a = none := by rw [← hword, consWord, consWord, ha]
    obtain ⟨-, ⟨-, hring⟩ | ⟨w, v, hw, -⟩⟩ := servePort_cons_ring hab
    · exact (ring_eq_iff.1 hring).2
    · exact absurd (hw.symm.trans hnone) nofun
  obtain ⟨u, hside, rfl⟩ := step_keeps_side (fun q hq a b => servePort_readSide hk hq) hown h
  exact hside

/-! ### Views and laps -/

/-- An index of the ring fits its field (00_scope.md R7). -/
theorem lt_two_pow_indexWidth {c : Config} {i : Nat} (h : i < c.cap) : i < 2 ^ indexWidth c :=
  h.trans_le (le_two_pow_clog2 c.cap)

/-- The view of a pair has the mirror on top and the index, whole, below it (10_state.md R35). -/
theorem registerView_layout {c : Config} {i : Nat} (m : Bool) (h : i < c.cap) :
    (registerView c m i).getLsbD (indexWidth c) = m ∧
      ((registerView c m i).setWidth (indexWidth c)).toNat = i := by
  constructor
  · rw [registerView, BitVec.getLsbD_cons, if_pos rfl]
  · rw [registerView, BitVec.setWidth_cons, BitVec.toNat_ofNat,
      Nat.mod_eq_of_lt (lt_two_pow_indexWidth h)]

/-- Index and mirror `n` bytes on from INIT's pair: the place in the lap and the parity of the laps
before it (10_state.md R26). -/
def lapPair (cap n : Nat) : Nat × Bool := (n % cap, decide (n / cap % 2 = 1))

/-- An advance goes from one byte's pair to the next one's. -/
theorem advance_lapPair {cap : Nat} (n : Nat) (hcap : 1 ≤ cap) :
    advance cap (lapPair cap n).1 (lapPair cap n).2 = lapPair cap (n + 1) := by
  have hlt : n % cap < cap := Nat.mod_lt n hcap
  have hn : n % cap + cap * (n / cap) = n := Nat.mod_add_div n cap
  by_cases hwrap : n % cap + 1 = cap
  · obtain ⟨hdiv, hmod⟩ : (n + 1) / cap = n / cap + 1 ∧ (n + 1) % cap = 0 :=
      (Nat.div_mod_unique hcap).2 ⟨by rw [Nat.mul_add]; omega, hcap⟩
    have hparity : decide ((n / cap + 1) % 2 = 1) = !decide (n / cap % 2 = 1) := by
      rw [← decide_not, decide_eq_decide]
      omega
    simp only [lapPair, advance, hwrap, hdiv, hmod, hparity, if_true]
  · obtain ⟨hdiv, hmod⟩ : (n + 1) / cap = n / cap ∧ (n + 1) % cap = n % cap + 1 :=
      (Nat.div_mod_unique hcap).2 ⟨by omega, by omega⟩
    simp [lapPair, advance, hwrap, hdiv, hmod]

/-- `n` advances from one byte's pair lead to the pair `n` bytes on. -/
theorem advanceTimes_lapPair {cap : Nat} (n k : Nat) (hcap : 1 ≤ cap) :
    advanceTimes cap n (lapPair cap k) = lapPair cap (k + n) := by
  induction n generalizing k with
  | zero => rfl
  | succ n ih => rw [advanceTimes, advance_lapPair k hcap, ih, Nat.add_right_comm, Nat.add_assoc]

end

/-! ### The obligations -/

/-- Settles O31: every port keeps the invariant, and so do the start and the end of a tick. -/
theorem stepKeepsInvariant : Obligations.StepKeepsInvariant := by
  unfold Obligations.StepKeepsInvariant
  intro s t hs h
  obtain ⟨-, hrun⟩ := step_eq_next.1 h
  have htake : (takeTick s).Inv := hs
  exact runTick_inv hrun htake

/-- Settles O9: a PUT that answers is on PROD, and drops its byte or stores it in the cell `w_idx`
names. -/
theorem putChangesOnlyItsOwn : Obligations.PutChangesOnlyItsOwn := by
  unfold Obligations.PutChangesOnlyItsOwn
  intro b s t h
  have hport : s.port = .prod := portAccepts_put.1 (exec_accepted h)
  obtain ⟨-, ⟨-, rfl⟩ | ⟨hf, -, rfl⟩⟩ := execPut_eq_next.1 h
  · simp [Responses.put, hport]
  · have hroom : s.occ ≠ s.cfg.cap := of_decide_eq_false hf
    refine ⟨fun a ha => memory_read_write_other s.stor b ha, fun hfull => absurd hfull hroom, ?_⟩
    simp [Responses.put, hport]

/-- Settles O22: with indices in range no forward distance is 0 or `C`; one cell leaves only equal
indices. -/
theorem emptyAndFullByMirrors : Obligations.EmptyAndFullByMirrors := by
  unfold Obligations.EmptyAndFullByMirrors
  intro s hr
  refine ⟨decide_eq_true_iff, decide_eq_true_iff, isEmpty_iff hr, isFull_iff hr, fun hcap => ?_⟩
  obtain ⟨hrd, hwr⟩ := id hr
  have hidx : s.rIdx = s.wIdx := by omega
  rw [isEmpty_iff hr, isFull_iff hr]
  by_cases hmir : s.rMir = s.wMir
  · exact .inl ⟨hidx, hmir⟩
  · exact .inr ⟨hidx, hmir⟩

/-- Settles O26: `IW` bits hold every index below `C`. -/
theorem registerViewLayout : Obligations.RegisterViewLayout := by
  unfold Obligations.RegisterViewLayout
  rintro s ⟨hrd, hwr⟩
  obtain ⟨hrMir, hrIdx⟩ := registerView_layout s.rMir hrd
  obtain ⟨hwMir, hwIdx⟩ := registerView_layout s.wMir hwr
  exact ⟨hrMir, hrIdx, hwMir, hwIdx⟩

/-- Settles O28: INIT's pair is that of the first byte, and each advance goes to the next one's. -/
theorem mirrorIsLapParity : Obligations.MirrorIsLapParity := by
  unfold Obligations.MirrorIsLapParity
  intro cap n hcap
  have hzero : (0, false) = lapPair cap 0 := by simp [lapPair]
  rw [hzero, advanceTimes_lapPair n 0 hcap, Nat.zero_add, lapPair]

/-- Settles O32: the mirrors say whether the write index is a lap ahead. -/
theorem invariantGivesCount : Obligations.InvariantGivesCount := by
  unfold Obligations.InvariantGivesCount
  rintro s ⟨⟨-, -, hring, -⟩, hinit⟩
  obtain ⟨hr, hm, hwin⟩ := hring hinit
  have hcount := rIdx_add_occ hr hm
  refine ⟨fun hmir => ?_, fun hmir => ?_, occ_le_cap hr, length_contents hwin⟩
  · rw [if_pos hmir] at hcount
    omega
  · rw [if_neg hmir] at hcount
    have hlt : s.rIdx < s.cfg.cap := hr.1
    omega

/-- Settles O35: the other ports' words leave a side alone and do not move its routine, so that a
port without a word at the start of a step has none when it is served. -/
theorem sidesOwnTheirFields : Obligations.SidesOwnTheirFields := by
  unfold Obligations.SidesOwnTheirFields
  intro s t h hk
  exact ⟨fun hword => writeSide_eq_iff.1 (step_writeSide h hk hword),
    fun hword => readSide_eq_iff.1 (step_readSide h hk hword)⟩

/-- Settles O10: a GET that answers is on CONS, and answers without data or reads a cell that keeps
its byte. -/
theorem getChangesOnlyItsOwn : Obligations.GetChangesOnlyItsOwn := by
  unfold Obligations.GetChangesOnlyItsOwn
  intro s t h
  have hport : s.port = .cons := portAccepts_get.1 (exec_accepted h)
  obtain ⟨-, ⟨-, rfl⟩ | ⟨he, -, b, -, rfl⟩⟩ := execGet_eq_next.1 h
  · simp [Responses.put, hport]
  · have hdata : s.occ ≠ 0 := of_decide_eq_false he
    refine ⟨fun _ => rfl, fun hempty => absurd hempty hdata, ?_⟩
    simp [Responses.put, hport]

/-- Settles O21: the cases of the count, and its range where the window passes the end of the
storage. -/
theorem occupiedCountCases : Obligations.OccupiedCountCases := by
  unfold Obligations.OccupiedCountCases
  intro s
  refine ⟨occ_eq_zero_of_eq, occ_eq_cap_of_ne, occ_of_lt, occ_of_gt, occ_le_cap, fun hr hlt => ?_⟩
  obtain ⟨hrd, -⟩ := hr
  rw [occ_of_gt hlt]
  omega

end Sys2Proof.Machine

/-! PROOFS. The family of 20_memory.md: the cells (R40), the block as a bounded queue (R51), the frames
of INIT and LEN (R46), the commands of one step in their order (R48, R49), and the split machine that
keeps the order of R50. -/

namespace Sys2Proof.Machine

open Sys2Proof

section

variable {s t : State}

/-! ### Words of commands -/

/-- The two fields of a word put together are read back. -/
theorem opField_append (op : BitVec 2) (d : Byte) : opField (op ++ d) = op ∧ dataField (op ++ d) = d :=
  ⟨BitVec.extractLsb'_append_eq_left, BitVec.extractLsb'_append_eq_right⟩

/-- A command's word decodes to that command (30_encoding.md R62). -/
theorem decode_encode (i : Instr) : decode (encode i) = .command i := by
  cases i with
  | put b =>
    obtain ⟨hop, hdata⟩ := opField_append 0b01#2 b
    simp [decode, encode, hop, hdata]
  | init => rfl
  | get => rfl
  | len => rfl

/-- A command's word issued on a port executes that command there. -/
theorem issue_encode (p : Port) (i : Instr) (s : State) :
    issue p (encode i) s = exec i (s.withPort p) := by
  rw [issue, decode_encode]

/-! ### The bytes held -/

/-- The bytes held are determined by the ring and the capacity. -/
theorem contents_congr (hring : t.ring = s.ring) (hcfg : t.cfg = s.cfg) : t.contents = s.contents := by
  simp only [State.ring, State.writeSide, State.readSide, Prod.mk.injEq] at hring
  obtain ⟨⟨hstor, hwIdx, hwMir⟩, hrIdx, hrMir⟩ := hring
  simp only [State.contents, State.occ, State.windowCell, hstor, hwIdx, hwMir, hrIdx, hrMir, hcfg]

/-- An empty buffer holds no byte. -/
theorem contents_of_isEmpty (h : s.isEmpty = true) : s.contents = [] := by
  have hocc : s.occ = 0 := of_decide_eq_true h
  simp [State.contents, hocc]

/-- INIT leaves no byte (40_init.md R80). -/
theorem contents_clearRing (s : State) : s.clearRing.contents = [] :=
  contents_of_isEmpty (decide_eq_true (occ_eq_zero_of_eq rfl rfl))

/-- A byte stored behind the window, the write pair advanced, stands last. -/
theorem contents_advanceWrite (b : Byte) (hr : s.indicesInRange) (hm : s.mirrorsMatch)
    (hf : s.isFull = false) :
    ({ s with stor := Memory.write s.stor s.wIdx b } : State).advanceWrite.contents =
      s.contents ++ [b] := by
  have hocc : ({ s with stor := Memory.write s.stor s.wIdx b } : State).advanceWrite.occ = s.occ + 1 :=
    occ_advanceWrite hr hm hf
  have hold : ∀ k ∈ List.range s.occ, Memory.read (Memory.write s.stor s.wIdx b) (s.windowCell k) =
      Memory.read s.stor (s.windowCell k) := fun k hk =>
    memory_read_write_other _ _ (windowCell_ne_wIdx hr hm hf (List.mem_range.1 hk))
  have hnew : Memory.read (Memory.write s.stor s.wIdx b) (s.windowCell s.occ) = some b := by
    rw [windowCell_occ hr hm, memory_read_write_same]
  rw [State.contents, hocc, List.range_succ, List.filterMap_append]
  exact congrArg₂ (· ++ ·) (List.filterMap_congr hold)
    (List.filterMap_cons_some (l := []) hnew)

/-- The window starts at the read index. -/
theorem windowCell_zero (hr : s.indicesInRange) : s.windowCell 0 = s.rIdx := Nat.mod_eq_of_lt hr.1

/-- The byte at the read index is the oldest, and an advance of the read pair leaves the rest. -/
theorem contents_advanceRead {b : Byte} (hr : s.indicesInRange) (hm : s.mirrorsMatch)
    (he : s.isEmpty = false) (hb : Memory.read s.stor s.rIdx = some b) :
    s.contents = b :: s.advanceRead.contents := by
  have hfirst : Memory.read s.stor (s.windowCell 0) = some b := by rw [windowCell_zero hr, hb]
  have hrest : ∀ k, Memory.read s.advanceRead.stor (s.advanceRead.windowCell k) =
      Memory.read s.stor (s.windowCell (k + 1)) := fun k => by
    rw [windowCell_advanceRead hr, advanceRead_stor]
  simp only [State.contents, hrest]
  rw [← occ_advanceRead hr hm he, List.range_succ_eq_map, List.filterMap_cons, hfirst,
    List.filterMap_map]
  rfl

/-! ### Live states -/

/-- What a live state says of its ring (10_state.md R32). -/
theorem State.Live.ring (hs : s.Live) : s.indicesInRange ∧ s.mirrorsMatch ∧ s.windowWritten := by
  obtain ⟨⟨-, -, hring, -⟩, hinit⟩ := hs
  exact hring hinit

/-- A live state has a well-formed configuration, and so at least one cell (00_scope.md R6). -/
theorem State.Live.cap_pos (hs : s.Live) : 0 < s.cfg.cap :=
  Nat.zero_lt_of_lt hs.ring.1.1

/-- A live state that is not empty holds a byte at the read index. -/
theorem State.Live.exists_oldest (hs : s.Live) (he : s.isEmpty = false) :
    ∃ b, Memory.read s.stor s.rIdx = some b := by
  obtain ⟨hr, -, hwin⟩ := hs.ring
  have hocc : 0 < s.occ := Nat.pos_of_ne_zero (of_decide_eq_false he)
  exact Option.isSome_iff_exists.1 (windowCell_zero hr ▸ hwin 0 hocc)

/-- A full live state holds as many bytes as there are cells. -/
theorem State.Live.length_of_isFull (hs : s.Live) (hf : s.isFull = true) :
    s.contents.length = s.cfg.cap := by
  obtain ⟨-, -, hwin⟩ := hs.ring
  exact (length_contents hwin).trans (of_decide_eq_true hf)

/-- Serving a port leaves a live state live. -/
theorem State.Live.withPort (hs : s.Live) (p : Port) : (s.withPort p).Live := hs

/-- A command leaves a live state live. -/
theorem exec_live {i : Instr} (hs : s.Live) (h : exec i s = .next t) : t.Live :=
  ⟨exec_inv h hs.1, (exec_keepsConsumer h).init hs.2⟩

/-! ### The commands as a queue -/

/-- In a live state the checks pass on a port that accepts the command, but for an INIT beside a data
command. -/
theorem commandRefusal_of_live {i : Instr} (hs : s.Live) (hp : portAccepts s.port i = true)
    (hi : i = .init → s.dataBusy = false) : commandRefusal i s = none :=
  commandRefusal_eq_none.2 ⟨hp, fun _ => hs.2, hi⟩

/-- PUT into a live state with room stores the byte. -/
theorem execPut_of_room {b : Byte} (hs : s.Live) (hp : s.port = .prod) (hf : s.isFull = false) :
    execPut b s = .next
      (({ s with stor := Memory.write s.stor s.wIdx b } : State).advanceWrite.respond (.stored true)) :=
  execPut_eq_next.2
    ⟨commandRefusal_of_live hs (portAccepts_put.2 hp) nofun, .inr ⟨hf, hs.ring.1.2, rfl⟩⟩

/-- PUT into a full live state drops the byte. -/
theorem execPut_of_full {b : Byte} (hs : s.Live) (hp : s.port = .prod) (hf : s.isFull = true) :
    execPut b s = .next (s.respond (.stored false)) :=
  execPut_eq_next.2 ⟨commandRefusal_of_live hs (portAccepts_put.2 hp) nofun, .inl ⟨hf, rfl⟩⟩

/-- GET from a live state with data gives the byte at the read index. -/
theorem execGet_of_data {b : Byte} (hs : s.Live) (hp : s.port = .cons) (he : s.isEmpty = false)
    (hb : Memory.read s.stor s.rIdx = some b) : execGet s = .next (s.advanceRead.respond (.byte b)) :=
  execGet_eq_next.2
    ⟨commandRefusal_of_live hs (portAccepts_get.2 hp) nofun, .inr ⟨he, hs.ring.1.1, b, hb, rfl⟩⟩

/-- GET from an empty live state answers that there is no data. -/
theorem execGet_of_empty (hs : s.Live) (hp : s.port = .cons) (he : s.isEmpty = true) :
    execGet s = .next s.respondNoData :=
  execGet_eq_next.2 ⟨commandRefusal_of_live hs (portAccepts_get.2 hp) nofun, .inl ⟨he, rfl⟩⟩

/-- In a live state a command answers on a port that accepts it (60_exceptions.md R110). -/
theorem State.Live.exec_completes {i : Instr} (hs : s.Live) (hp : portAccepts s.port i = true)
    (hi : i = .init → s.dataBusy = false) : ∃ t, exec i s = .next t := by
  have hcheck := commandRefusal_of_live hs hp hi
  cases i with
  | init => exact ⟨_, execInit_eq_next.2 ⟨hcheck, rfl⟩⟩
  | put b =>
    cases hf : s.isFull with
    | false => exact ⟨_, execPut_of_room hs (portAccepts_put.1 hp) hf⟩
    | true => exact ⟨_, execPut_of_full hs (portAccepts_put.1 hp) hf⟩
  | get =>
    cases he : s.isEmpty with
    | false =>
      obtain ⟨b, hb⟩ := hs.exists_oldest he
      exact ⟨_, execGet_of_data hs (portAccepts_get.1 hp) he hb⟩
    | true => exact ⟨_, execGet_of_empty hs (portAccepts_get.1 hp) he⟩
  | len => exact ⟨_, execLen_eq_next.2 ⟨hcheck, rfl⟩⟩

/-- The block simulates the queue of 20_memory.md R51: a command that answers in a live state gives
the queue's answer, on the port being served, and leaves the bytes the queue leaves. -/
theorem State.Live.exec_queue {i : Instr} (hs : s.Live) (h : exec i s = .next t) :
    ∃ r, t.resp = s.resp.put s.port r ∧ r.answer = (queueStep s.cfg.cap s.contents i).2 ∧
      t.contents = (queueStep s.cfg.cap s.contents i).1 := by
  obtain ⟨hr, hm, hwin⟩ := hs.ring
  have hlen : s.contents.length = s.occ := length_contents hwin
  cases i with
  | init =>
    obtain ⟨-, rfl⟩ := execInit_eq_next.1 h
    exact ⟨.unit, rfl, rfl, contents_clearRing s⟩
  | put b =>
    obtain ⟨-, ⟨hf, rfl⟩ | ⟨hf, -, rfl⟩⟩ := execPut_eq_next.1 h
    · have hfull : s.occ = s.cfg.cap := of_decide_eq_true hf
      exact ⟨.stored false, rfl, by simp [queueStep, hlen, hfull, Response.answer],
        by simp [queueStep, hlen, hfull]⟩
    · have hroom : s.occ ≠ s.cfg.cap := of_decide_eq_false hf
      refine ⟨.stored true, rfl, by simp [queueStep, hlen, hroom, Response.answer], ?_⟩
      simpa [queueStep, hlen, hroom] using contents_advanceWrite b hr hm hf
  | get =>
    obtain ⟨-, ⟨he, rfl⟩ | ⟨he, -, b, hb, rfl⟩⟩ := execGet_eq_next.1 h
    · rw [contents_of_isEmpty he]
      exact ⟨.noData s.draws, rfl, rfl, contents_of_isEmpty he⟩
    · rw [contents_advanceRead hr hm he hb]
      exact ⟨.byte b, rfl, rfl, rfl⟩
  | len =>
    obtain ⟨-, rfl⟩ := execLen_eq_next.1 h
    exact ⟨.count s.occ, rfl, by simp [queueStep, hlen, Response.answer], rfl⟩

/-! ### Runs of commands -/

/-- INIT is accepted on CTRL only (30_encoding.md R60). -/
theorem portAccepts_init {p : Port} : portAccepts p .init = true ↔ p = .ctrl := by
  cases p <;> simp [portAccepts]

/-- A command's own port accepts it (30_encoding.md R60). -/
theorem portAccepts_homePort (i : Instr) : portAccepts (homePort i) i = true := by cases i <;> rfl

/-- A response put on a port is the one there, and every other port's stays. -/
theorem at_put (r : Responses) (p q : Port) (v : Response) :
    (r.put p v).at q = if q = p then some v else r.at q := by
  cases p <;> cases q <;> rfl

@[simp] theorem at_put_same (r : Responses) (p : Port) (v : Response) : (r.put p v).at p = some v := by
  rw [at_put, if_pos rfl]

theorem at_put_other (r : Responses) {p q : Port} (v : Response) (h : q ≠ p) :
    (r.put p v).at q = r.at q := by
  rw [at_put, if_neg h]

/-- What the model sets up around a command, a command keeps: the inbox and the mark of a data
command (20_memory.md R46). -/
theorem exec_keepsInputs {i : Instr} (h : exec i s = .next t) :
    t.inbox = s.inbox ∧ t.dataBusy = s.dataBusy := by
  cases i with
  | init =>
    obtain ⟨-, rfl⟩ := execInit_eq_next.1 h
    exact ⟨rfl, rfl⟩
  | put b =>
    obtain ⟨-, ⟨-, rfl⟩ | ⟨-, -, rfl⟩⟩ := execPut_eq_next.1 h
    all_goals exact ⟨rfl, rfl⟩
  | get =>
    obtain ⟨-, ⟨-, rfl⟩ | ⟨-, -, b, -, rfl⟩⟩ := execGet_eq_next.1 h
    all_goals exact ⟨rfl, rfl⟩
  | len =>
    obtain ⟨-, rfl⟩ := execLen_eq_next.1 h
    exact ⟨rfl, rfl⟩

/-! ### The split machine -/

/-- A cell that holds a byte is listed. -/
theorem memory_mem_of_read {m : Memory} {a : Nat} {b : Byte} (h : Memory.read m a = some b) :
    ∃ c ∈ m, c.1 = a := by
  induction m with
  | nil => simp at h
  | cons c m ih =>
    obtain ⟨x, v⟩ := c
    by_cases hax : a = x
    · exact ⟨(x, v), List.mem_cons_self, hax.symm⟩
    · obtain ⟨y, hy, hya⟩ := ih (by simpa [Memory.read, hax] using h)
      exact ⟨y, List.mem_cons_of_mem _ hy, hya⟩

/-- In a canonical storage, writing to a cell the byte it holds changes nothing. -/
theorem memory_write_self {m : Memory} {a : Nat} {b : Byte} (hwf : Memory.wf m)
    (h : Memory.read m a = some b) : Memory.write m a b = m := by
  induction m with
  | nil => simp at h
  | cons c m ih =>
    obtain ⟨x, v⟩ := c
    obtain ⟨hx, hm⟩ := List.pairwise_cons.1 hwf
    by_cases hax : a = x
    · have hv : v = b := by simpa [Memory.read, hax] using h
      simp [Memory.write, hax, hv]
    · have hread : Memory.read m a = some b := by simpa [Memory.read, hax] using h
      obtain ⟨y, hy, hya⟩ := memory_mem_of_read hread
      have hlt : ¬ a < x := (hya ▸ hx y hy).not_gt
      simp [Memory.write, hax, hlt, ih hm hread]

/-- Everything a stage of the split machine can do from a state that meets its invariant, with the
command it completes (20_memory.md R50). -/
inductive SplitStage (x : SplitState) : SplitMove → Option Instr → SplitState → Prop where
  | putDrop {b : Byte} (hput : x.put = .idle) (hf : x.st.isFull = true) :
      SplitStage x (.putStart b) (some (.put b))
        { x with st := (x.st.withPort .prod).respond (.stored false) }
  | putTest {b : Byte} (hput : x.put = .idle) (hf : x.st.isFull = false) :
      SplitStage x (.putStart b) none { x with put := .tested b }
  | putWrite {b : Byte} (hput : x.put = .tested b) :
      SplitStage x .putWrite none
        { x with st := { x.st with stor := Memory.write x.st.stor x.st.wIdx b }, put := .written b }
  | putPublish {b : Byte} (hput : x.put = .written b) :
      SplitStage x .putPublish (some (.put b))
        { x with st := ((x.st.withPort .prod).advanceWrite).respond (.stored true), put := .idle }
  | getEmpty (hget : x.get = .idle) (he : x.st.isEmpty = true) :
      SplitStage x .getStart (some .get) { x with st := (x.st.withPort .cons).respondNoData }
  | getTest (hget : x.get = .idle) (he : x.st.isEmpty = false) :
      SplitStage x .getStart none { x with get := .tested }
  | getRead {b : Byte} (hget : x.get = .tested) (hb : Memory.read x.st.stor x.st.rIdx = some b) :
      SplitStage x .getRead none { x with get := .fetched b }
  | getPublish {b : Byte} (hget : x.get = .fetched b) :
      SplitStage x .getPublish (some .get)
        { x with st := ((x.st.withPort .cons).advanceRead).respond (.byte b), get := .idle }
  /-- A stage that is not the next one of its side. -/
  | skip {m : SplitMove} : SplitStage x m none x

section

variable {x y : SplitState} {m : SplitMove}

/-- A PUT whose test passed still has room (20_memory.md R50). -/
theorem isFull_of_put_tested {b : Byte} (hx : x.Inv) (hput : x.put = .tested b) :
    x.st.isFull = false := by
  obtain ⟨-, hok, -⟩ := hx
  simpa [SplitState.putOk, hput] using hok

/-- A PUT that has written still has room, and its byte stands in its cell. -/
theorem cell_of_put_written {b : Byte} (hx : x.Inv) (hput : x.put = .written b) :
    x.st.isFull = false ∧ Memory.read x.st.stor x.st.wIdx = some b := by
  obtain ⟨-, hok, -⟩ := hx
  simpa [SplitState.putOk, hput] using hok

/-- A GET whose test passed still has data. -/
theorem isEmpty_of_get_tested (hx : x.Inv) (hget : x.get = .tested) : x.st.isEmpty = false := by
  obtain ⟨-, -, hok⟩ := hx
  simpa [SplitState.getOk, hget] using hok

/-- A GET that has read still has data, and the byte it read is the oldest. -/
theorem cell_of_get_fetched {b : Byte} (hx : x.Inv) (hget : x.get = .fetched b) :
    x.st.isEmpty = false ∧ Memory.read x.st.stor x.st.rIdx = some b := by
  obtain ⟨-, -, hok⟩ := hx
  simpa [SplitState.getOk, hget] using hok

/-- A stage that a move takes, and the command it completes. -/
theorem exists_stage {c : Option Instr} (h : SplitStage x m c y) (hstep : splitStep m x = .next y)
    (hc : splitCompletes m x = c) :
    ∃ y, splitStep m x = .next y ∧ SplitStage x m (splitCompletes m x) y :=
  ⟨y, hstep, hc ▸ h⟩

/-- Every move answers, with a stage of `SplitStage`: the cells it uses exist, and a GET under way
finds a byte. -/
theorem splitStep_stage (hx : x.Inv) (m : SplitMove) :
    ∃ y, splitStep m x = .next y ∧ SplitStage x m (splitCompletes m x) y := by
  obtain ⟨hr, -, -⟩ := hx.1.ring
  cases m with
  | putStart b =>
    cases hput : x.put with
    | idle =>
      cases hf : x.st.isFull with
      | true =>
        exact exists_stage (.putDrop hput hf) (by simp [splitStep, splitPutStart, hput, hf])
          (by simp [splitCompletes, hput, hf])
      | false =>
        exact exists_stage (.putTest hput hf) (by simp [splitStep, splitPutStart, hput, hf])
          (by simp [splitCompletes, hput, hf])
    | _ => exact exists_stage .skip (by simp [splitStep, hput]) (by simp [splitCompletes, hput])
  | putWrite =>
    cases hput : x.put with
    | tested b =>
      exact exists_stage (.putWrite hput) (by simp [splitStep, hput, writeCell, hr.2]) rfl
    | _ => exact exists_stage .skip (by simp [splitStep, hput]) rfl
  | putPublish =>
    cases hput : x.put with
    | written b =>
      exact exists_stage (.putPublish hput) (by simp [splitStep, hput]) (by simp [splitCompletes, hput])
    | _ => exact exists_stage .skip (by simp [splitStep, hput]) (by simp [splitCompletes, hput])
  | getStart =>
    cases hget : x.get with
    | idle =>
      cases he : x.st.isEmpty with
      | true =>
        exact exists_stage (.getEmpty hget he) (by simp [splitStep, splitGetStart, hget, he])
          (by simp [splitCompletes, hget, he])
      | false =>
        exact exists_stage (.getTest hget he) (by simp [splitStep, splitGetStart, hget, he])
          (by simp [splitCompletes, hget, he])
    | _ => exact exists_stage .skip (by simp [splitStep, hget]) (by simp [splitCompletes, hget])
  | getRead =>
    cases hget : x.get with
    | tested =>
      obtain ⟨b, hb⟩ := hx.1.exists_oldest (isEmpty_of_get_tested hx hget)
      exact exists_stage (.getRead hget hb)
        (by simp [splitStep, hget, readCell_eq_next.2 ⟨hr.1, hb⟩]) rfl
    | _ => exact exists_stage .skip (by simp [splitStep, hget]) rfl
  | getPublish =>
    cases hget : x.get with
    | fetched b =>
      exact exists_stage (.getPublish hget) (by simp [splitStep, hget]) (by simp [splitCompletes, hget])
    | _ => exact exists_stage .skip (by simp [splitStep, hget]) (by simp [splitCompletes, hget])

/-- With data and with room, the two indices name different cells. -/
theorem rIdx_ne_wIdx (hs : s.Live) (he : s.isEmpty = false) (hf : s.isFull = false) :
    s.rIdx ≠ s.wIdx := by
  obtain ⟨hr, hm, -⟩ := hs.ring
  have hocc : 0 < s.occ := Nat.pos_of_ne_zero (of_decide_eq_false he)
  exact windowCell_zero hr ▸ windowCell_ne_wIdx hr hm hf hocc

/-- A write behind the window leaves its cells as they were. -/
theorem read_window_write {b : Byte} (hs : s.Live) (hf : s.isFull = false) {k : Nat} (hk : k < s.occ) :
    Memory.read (Memory.write s.stor s.wIdx b) (s.windowCell k) =
      Memory.read s.stor (s.windowCell k) := by
  obtain ⟨hr, hm, -⟩ := hs.ring
  exact memory_read_write_other _ _ (windowCell_ne_wIdx hr hm hf hk)

/-- A write behind the window leaves a live state live. -/
theorem live_write {b : Byte} (hs : s.Live) (hf : s.isFull = false) :
    ({ s with stor := Memory.write s.stor s.wIdx b } : State).Live := by
  obtain ⟨hr, hm, hwin⟩ := hs.ring
  obtain ⟨⟨hwf, hstor, -, hsig, hprod⟩, hinit⟩ := id hs
  have hwin' : ({ s with stor := Memory.write s.stor s.wIdx b } : State).windowWritten := fun k hk =>
    (congrArg Option.isSome (read_window_write hs hf hk)).trans (hwin k hk)
  exact ⟨⟨hwf, storageOk_write hr.2 hstor, fun _ => ⟨hr, hm, hwin'⟩, hsig, hprod⟩, hinit⟩

/-- The stage that completes a command leaves what the atomic command leaves (20_memory.md R50). A
PUT publishes a byte that stands in its cell, which is to write it again. -/
theorem SplitStage.exec_eq {i : Instr} (hx : x.Inv) (h : SplitStage x m (some i) y) :
    exec i (x.st.withPort m.port) = .next y.st := by
  obtain ⟨hs, -, -⟩ := id hx
  cases h with
  | putDrop hput hf => exact execPut_of_full (hs.withPort .prod) rfl hf
  | putPublish hput =>
    obtain ⟨hf, hb⟩ := cell_of_put_written hx hput
    obtain ⟨⟨-, ⟨hwf, -⟩, -⟩, -⟩ := id hs
    refine (execPut_of_room (hs.withPort .prod) rfl hf).trans ?_
    rw [withPort_stor, withPort_wIdx, memory_write_self hwf hb]
    rfl
  | getEmpty hget he => exact execGet_of_empty (hs.withPort .cons) rfl he
  | getPublish hget =>
    obtain ⟨he, hb⟩ := cell_of_get_fetched hx hget
    exact execGet_of_data (hs.withPort .cons) rfl he hb

/-- A stage that completes no command shows nothing of itself: a byte is written behind the window
only. -/
theorem SplitStage.silent (hx : x.Inv) (h : SplitStage x m none y) :
    y.st.registers = x.st.registers ∧ y.st.contents = x.st.contents ∧ y.st.resp = x.st.resp := by
  cases h with
  | putWrite hput =>
    have hf := isFull_of_put_tested hx hput
    exact ⟨rfl, List.filterMap_congr fun k hk => read_window_write hx.1 hf (List.mem_range.1 hk), rfl⟩
  | _ => exact ⟨rfl, rfl, rfl⟩

/-- Every stage leaves the ring live. -/
theorem SplitStage.live {c : Option Instr} (hx : x.Inv) (h : SplitStage x m c y) : y.st.Live := by
  obtain ⟨hs, -, -⟩ := id hx
  cases c with
  | some i => exact exec_live (hs.withPort m.port) (h.exec_eq hx)
  | none =>
    cases h with
    | putWrite hput =>
      exact live_write hs (isFull_of_put_tested hx hput)
    | _ => exact hs

/-- A PUT that has written relies on its room and its cell. -/
theorem putOk_of_written {b : Byte} (hput : x.put = .written b) (hf : x.st.isFull = false)
    (hcell : Memory.read x.st.stor x.st.wIdx = some b) : x.putOk = true := by
  simp [SplitState.putOk, hput, hf, hcell]

/-- A PUT under way still has what it relies on after what leaves it room and keeps its cell. -/
theorem putOk_of_keeps (hok : x.putOk = true) (hput : y.put = x.put)
    (hf : x.st.isFull = false → y.st.isFull = false)
    (hcell : Memory.read y.st.stor y.st.wIdx = Memory.read x.st.stor x.st.wIdx) : y.putOk = true := by
  unfold SplitState.putOk at hok ⊢
  rw [hput, hcell]
  cases hp : x.put <;> simp_all

/-- A GET under way still has what it relies on after what leaves it data and keeps its cell. -/
theorem getOk_of_keeps (hok : x.getOk = true) (hget : y.get = x.get)
    (hkeep : x.st.isEmpty = false → y.st.isEmpty = false ∧
      Memory.read y.st.stor y.st.rIdx = Memory.read x.st.stor x.st.rIdx) : y.getOk = true := by
  unfold SplitState.getOk at hok ⊢
  rw [hget]
  cases hp : x.get <;> simp_all

/-- Every stage keeps the invariant of the split machine: each side finds what the other relies on as
it was, since PUT writes behind the window and GET only makes room (20_memory.md R50). -/
theorem SplitStage.inv {c : Option Instr} (hx : x.Inv) (h : SplitStage x m c y) : y.Inv := by
  obtain ⟨hs, hputOk, hgetOk⟩ := id hx
  obtain ⟨hr, hm, hwin⟩ := hs.ring
  refine ⟨h.live hx, ?_⟩
  cases h with
  | putDrop hput hf => exact ⟨hputOk, hgetOk⟩
  | putTest hput hf => exact ⟨by simp [SplitState.putOk, hf], hgetOk⟩
  | putWrite hput =>
    have hf := isFull_of_put_tested hx hput
    have hcell (he : x.st.isEmpty = false) := rIdx_ne_wIdx hs he hf
    exact ⟨putOk_of_written rfl hf (memory_read_write_same _ _ _),
      getOk_of_keeps hgetOk rfl fun he => ⟨he, memory_read_write_other _ _ (hcell he)⟩⟩
  | putPublish hput =>
    obtain ⟨hf, -⟩ := cell_of_put_written hx hput
    have hocc : x.st.advanceWrite.occ = x.st.occ + 1 := occ_advanceWrite hr hm hf
    have hdata : x.st.advanceWrite.isEmpty = false := decide_eq_false (by omega)
    exact ⟨rfl, getOk_of_keeps hgetOk rfl fun _ => ⟨hdata, rfl⟩⟩
  | getEmpty hget he => exact ⟨hputOk, hgetOk⟩
  | getTest hget he => exact ⟨hputOk, by simp [SplitState.getOk, he]⟩
  | getRead hget hb =>
    have he := isEmpty_of_get_tested hx hget
    exact ⟨hputOk, by simp [SplitState.getOk, he, hb]⟩
  | getPublish hget =>
    obtain ⟨he, -⟩ := cell_of_get_fetched hx hget
    have hocc := occ_advanceRead hr hm he
    have hle : x.st.occ ≤ x.st.cfg.cap := occ_le_cap hr
    have hroom : x.st.advanceRead.isFull = false := decide_eq_false (by rw [advanceRead_cfg]; omega)
    exact ⟨putOk_of_keeps hputOk rfl (fun _ => hroom) rfl, rfl⟩
  | skip => exact ⟨hputOk, hgetOk⟩

end

/-! ### Commands presented in one step -/

/-- Every order of the three ports is some tick's (20_memory.md R49). -/
theorem exists_order_of_perm {l : List Port} (h : l.Perm [.prod, .cons, .ctrl]) :
    ∃ o : Order, o.ports = l := by
  have hall : [Port.prod, .cons, .ctrl].permutations' = [Order.pcs.ports, Order.cps.ports,
    Order.csp.ports, Order.psc.ports, Order.spc.ports, Order.scp.ports] := rfl
  have hl := List.mem_permutations'.2 h
  simp only [hall, List.mem_cons, List.not_mem_nil, or_false] at hl
  rcases hl with rfl | rfl | rfl | rfl | rfl | rfl
  all_goals exact ⟨_, rfl⟩

/-- The command on each port, where one is presented. -/
def commandOn (ip ic is : Option Instr) : Port → Option Instr
  | .prod => ip
  | .cons => ic
  | .ctrl => is

/-- A port serves the command presented on it, or nothing. -/
def serveCommand (c : Option Instr) (p : Port) (a : State) : Result :=
  match c with
  | some i => exec i (a.withPort p)
  | none => .next a

/-- The tick presents the words of these commands, and nothing else on the three ports. -/
structure Presents (t : Tick) (ip ic is : Option Instr) : Prop where
  prod : t.prod = ip.map fun i => .word (encode i)
  cons : t.cons = ic.map fun i => .word (encode i)
  ctrl : t.ctrl = is.map encode

/-- A port on which a command's word is presented serves that command. -/
theorem servePort_of_presents {k : Tick} {ip ic is : Option Instr} (hk : Presents k ip ic is)
    (p : Port) (s : State) : servePort k p s = serveCommand (commandOn ip ic is p) p s := by
  cases p with
  | prod =>
    cases ip with
    | none => simp [servePort, hk.prod, commandOn, serveCommand]
    | some i => simp [servePort, hk.prod, commandOn, serveCommand, producerMove, issue_encode]
  | cons =>
    cases ic with
    | none => simp [servePort, hk.cons, commandOn, serveCommand]
    | some i => simp [servePort, hk.cons, commandOn, serveCommand, consumerMove, issue_encode]
  | ctrl =>
    cases is with
    | none => simp [servePort, hk.ctrl, commandOn, serveCommand]
    | some i => simp [servePort, hk.ctrl, commandOn, serveCommand, issue_encode]

/-- Without an INIT on CTRL the ports are served in the order the tick chose (log entry 6). -/
theorem portOrder_of_presents {k : Tick} {ip ic is : Option Instr} (hk : Presents k ip ic is)
    (his : is ≠ some .init) : portOrder k = k.order.ports := by
  have hno : holdsInit k.ctrl = false := by
    rw [hk.ctrl]
    cases is with
    | none => rfl
    | some i => simpa [holdsInit, decode_encode] using his
  simp [portOrder, hno]

/-- The commands presented in one step, none of them INIT, run one after another in the order of the
tick, each in the state the one before left (20_memory.md R48, R49). -/
theorem step_of_presents {k : Tick} {rest : List Tick} {ip ic is : Option Instr} {p q r : Port}
    (hwf : s.cfg.wellFormed = true) (hinbox : s.inbox = k :: rest) (hk : Presents k ip ic is)
    (his : is ≠ some .init) (horder : k.order.ports = [p, q, r]) :
    step s = andThen (serveCommand (commandOn ip ic is p) p (beginTick k { s with inbox := rest }))
      fun a => andThen (serveCommand (commandOn ip ic is q) q a) fun b =>
        andThen (serveCommand (commandOn ip ic is r) r b) fun c => .next (endTick c) := by
  have hnext : nextTick s = k := by simp [nextTick, hinbox]
  have htake : takeTick s = { s with inbox := rest } := by simp [takeTick, hinbox]
  simp only [step, configRefusal_eq_none.2 hwf, runTick, hnext, htake, portOrder_of_presents hk his,
    horder, servePorts, servePort_of_presents hk]
  cases serveCommand (commandOn ip ic is p) p (beginTick k { s with inbox := rest }) with
  | next a =>
    cases hb : serveCommand (commandOn ip ic is q) q a with
    | next b => 
      cases hc : serveCommand (commandOn ip ic is r) r b <;> simp [hb, hc]
    | fault f => simp [hb]
    | refused f => simp [hb]
  | fault f => rfl
  | refused f => rfl

/-! ### A PUT and a GET in one step -/

/-- The tick of 20_memory.md R49: a PUT on PROD and a GET on CONS, in one of the orders. -/
def putGetTick (b : Byte) (o : Order) : Tick :=
  { arrivals := [], prod := some (.word (encode (.put b))), cons := some (.word (encode .get)),
    ctrl := none, order := o }

/-- The state in which the first of the two is served; it does not depend on the order. -/
def putGetStart (s : State) (b : Byte) (rest : List Tick) : State :=
  beginTick (putGetTick b .pcs) { s with inbox := rest }

/-- Two commands on their ports, one after another, and the end of the step. -/
def inSequence (p : Port) (i : Instr) (q : Port) (j : Instr) (a : State) : Result :=
  andThen (exec i (a.withPort p)) fun u => andThen (exec j (u.withPort q)) fun v => .next (endTick v)

/-- The tick of a PUT and a GET presents these two commands. -/
theorem putGetTick_presents (b : Byte) (o : Order) :
    Presents (putGetTick b o) (some (.put b)) (some .get) none := ⟨rfl, rfl, rfl⟩

/-- PROD first: PUT and then GET. -/
theorem step_putGet_prodFirst (b : Byte) (rest : List Tick) (hs : s.Live) :
    step { s with inbox := putGetTick b .pcs :: rest } =
      inSequence .prod (.put b) .cons .get (putGetStart s b rest) :=
  step_of_presents (s := { s with inbox := putGetTick b .pcs :: rest }) hs.1.1 rfl
    (putGetTick_presents b .pcs) nofun rfl

/-- CONS first: GET and then PUT. -/
theorem step_putGet_consFirst (b : Byte) (rest : List Tick) (hs : s.Live) :
    step { s with inbox := putGetTick b .cps :: rest } =
      inSequence .cons .get .prod (.put b) (putGetStart s b rest) :=
  step_of_presents (s := { s with inbox := putGetTick b .cps :: rest }) hs.1.1 rfl
    (putGetTick_presents b .cps) nofun rfl

/-- The start of a step leaves a live state live. -/
theorem putGetStart_live (b : Byte) (rest : List Tick) (hs : s.Live) : (putGetStart s b rest).Live :=
  have htaken : ({ s with inbox := rest } : State).Inv := hs.1
  ⟨beginTick_inv htaken, hs.2⟩

/-- Two commands that answer one after another are the step's. -/
theorem inSequence_of_next {p q : Port} {i j : Instr} {u v : State}
    (hu : exec i (s.withPort p) = .next u) (hv : exec j (u.withPort q) = .next v) :
    inSequence p i q j s = .next (endTick v) := by
  simp [inSequence, hu, hv]

/-- Two commands in one step are two steps of the queue, each answering on its own port. -/
theorem inSequence_queue {p q : Port} {i j : Instr} {l m : List Byte} {x y : Answer} (hs : s.Live)
    (hpq : p ≠ q) (hp : portAccepts p i = true) (hq : portAccepts q j = true) (hi : i ≠ .init)
    (hj : j ≠ .init) (hfirst : queueStep s.cfg.cap s.contents i = (l, x))
    (hsecond : queueStep s.cfg.cap l j = (m, y)) :
    ∃ u v w, inSequence p i q j s = .next u ∧ u.resp.at p = some v ∧ u.resp.at q = some w ∧
      v.answer = x ∧ w.answer = y ∧ u.contents = m := by
  obtain ⟨a, ha⟩ := (hs.withPort p).exec_completes hp (absurd · hi)
  have hlive : a.Live := exec_live (hs.withPort p) ha
  have hcfg : a.cfg = s.cfg := (exec_keepsConsumer ha).cfg
  obtain ⟨c, hc⟩ := (hlive.withPort q).exec_completes hq (absurd · hj)
  obtain ⟨v, hvresp, hv, hl⟩ := (hs.withPort p).exec_queue ha
  obtain ⟨w, hwresp, hw, hm⟩ := (hlive.withPort q).exec_queue hc
  rw [withPort_cfg, withPort_contents, hfirst] at hv hl
  rw [withPort_cfg, withPort_contents, hcfg, hl, hsecond] at hw hm
  have hatp : c.resp.at p = some v := by
    rw [hwresp, withPort_port, at_put_other _ _ hpq, withPort_resp, hvresp, withPort_port, at_put_same]
  have hatq : c.resp.at q = some w := by rw [hwresp, withPort_port, at_put_same]
  exact ⟨endTick c, v, w, inSequence_of_next ha hc, hatp, hatq, hv, hw, hm⟩

/-- PROD first: a PUT and a GET in one step are these two steps of the queue. -/
theorem prodFirst_queue {b : Byte} {l m : List Byte} {x y : Answer} (hs : s.Live)
    (hput : queueStep s.cfg.cap s.contents (.put b) = (l, x))
    (hget : queueStep s.cfg.cap l .get = (m, y)) :
    ∃ u v w, inSequence .prod (.put b) .cons .get s = .next u ∧ u.resp.prod = some v ∧
      u.resp.cons = some w ∧ v.answer = x ∧ w.answer = y ∧ u.contents = m :=
  inSequence_queue (p := .prod) (q := .cons) hs nofun rfl rfl nofun nofun hput hget

/-- CONS first: a GET and a PUT in one step are these two steps of the queue. -/
theorem consFirst_queue {b : Byte} {l m : List Byte} {x y : Answer} (hs : s.Live)
    (hget : queueStep s.cfg.cap s.contents .get = (l, x))
    (hput : queueStep s.cfg.cap l (.put b) = (m, y)) :
    ∃ u v w, inSequence .cons .get .prod (.put b) s = .next u ∧ u.resp.cons = some v ∧
      u.resp.prod = some w ∧ v.answer = x ∧ w.answer = y ∧ u.contents = m :=
  inSequence_queue (p := .cons) (q := .prod) hs nofun rfl rfl nofun nofun hget hput

/-- On a queue with room a PUT joins the end (20_memory.md R51). -/
theorem queueStep_put_of_room {cap : Nat} {q : List Byte} (b : Byte) (h : q.length ≠ cap) :
    queueStep cap q (.put b) = (q ++ [b], .stored true) := by
  simp [queueStep, h]

/-- On a full queue a PUT is dropped (20_memory.md R51). -/
theorem queueStep_put_of_full {cap : Nat} {q : List Byte} (b : Byte) (h : q.length = cap) :
    queueStep cap q (.put b) = (q, .stored false) := by
  simp [queueStep, h]

/-- The answer of a PUT is its response. -/
theorem eq_stored_of_answer {r : Response} {ok : Bool} (h : r.answer = .stored ok) :
    r = .stored ok := by
  cases r <;> simp_all [Response.answer]

/-- The answer of a GET with a byte is its response. -/
theorem eq_byte_of_answer {r : Response} {b : Byte} (h : r.answer = .byte (some b)) :
    r = .byte b := by
  cases r <;> simp_all [Response.answer]

/-- The answer of a GET without a byte is a response with some free value (30_encoding.md R64). -/
theorem eq_noData_of_answer {r : Response} (h : r.answer = .byte none) : ∃ d, r = .noData d := by
  cases r <;> simp_all [Response.answer]

/-- The answer of a LEN is its response. -/
theorem eq_count_of_answer {r : Response} {n : Nat} (h : r.answer = .count n) : r = .count n := by
  cases r <;> simp_all [Response.answer]

/-- PROD first, on an empty buffer: the GET returns the PUT's byte (20_memory.md R49). -/
theorem prodFirst_of_empty (b : Byte) (hs : s.Live) (he : s.isEmpty = true) :
    ∃ u, inSequence .prod (.put b) .cons .get s = .next u ∧ u.resp.prod = some (.stored true) ∧
      u.resp.cons = some (.byte b) ∧ u.contents = [] := by
  have hput : queueStep s.cfg.cap s.contents (.put b) = ([b], .stored true) := by
    rw [contents_of_isEmpty he]
    exact queueStep_put_of_room b hs.cap_pos.ne
  obtain ⟨u, v, w, hu, hprod, hcons, hv, hw, hleft⟩ := prodFirst_queue hs hput rfl
  obtain rfl := eq_stored_of_answer hv
  obtain rfl := eq_byte_of_answer hw
  exact ⟨u, hu, hprod, hcons, hleft⟩

/-- CONS first, on an empty buffer: the GET returns none, and the byte stays (20_memory.md R49). -/
theorem consFirst_of_empty (b : Byte) (hs : s.Live) (he : s.isEmpty = true) :
    ∃ u d, inSequence .cons .get .prod (.put b) s = .next u ∧ u.resp.cons = some (.noData d) ∧
      u.resp.prod = some (.stored true) ∧ u.contents = [b] := by
  have hget : queueStep s.cfg.cap s.contents .get = ([], .byte none) := by
    rw [contents_of_isEmpty he]
    rfl
  obtain ⟨u, v, w, hu, hcons, hprod, hv, hw, hleft⟩ := consFirst_queue hs hget
    (queueStep_put_of_room (q := []) b hs.cap_pos.ne)
  obtain ⟨d, rfl⟩ := eq_noData_of_answer hv
  obtain rfl := eq_stored_of_answer hw
  exact ⟨u, d, hu, hcons, hprod, hleft⟩

/-- PROD first, on a full buffer: the PUT is dropped (20_memory.md R49). -/
theorem prodFirst_of_full {h : Byte} {q : List Byte} (b : Byte) (hs : s.Live) (hf : s.isFull = true)
    (hq : s.contents = h :: q) :
    ∃ u, inSequence .prod (.put b) .cons .get s = .next u ∧ u.resp.prod = some (.stored false) ∧
      u.resp.cons = some (.byte h) ∧ u.contents = q := by
  have hput : queueStep s.cfg.cap s.contents (.put b) = (h :: q, .stored false) := by
    rw [queueStep_put_of_full b (hs.length_of_isFull hf), hq]
  obtain ⟨u, v, w, hu, hprod, hcons, hv, hw, hleft⟩ := prodFirst_queue hs hput rfl
  obtain rfl := eq_stored_of_answer hv
  obtain rfl := eq_byte_of_answer hw
  exact ⟨u, hu, hprod, hcons, hleft⟩

/-- CONS first, on a full buffer: the GET makes room for the PUT (20_memory.md R49). -/
theorem consFirst_of_full {h : Byte} {q : List Byte} (b : Byte) (hs : s.Live) (hf : s.isFull = true)
    (hq : s.contents = h :: q) :
    ∃ u, inSequence .cons .get .prod (.put b) s = .next u ∧ u.resp.cons = some (.byte h) ∧
      u.resp.prod = some (.stored true) ∧ u.contents = q ++ [b] := by
  have hget : queueStep s.cfg.cap s.contents .get = (q, .byte (some h)) := by
    rw [hq]
    rfl
  have hroom : q.length ≠ s.cfg.cap := by
    rw [← hs.length_of_isFull hf, hq, List.length_cons]
    exact (Nat.succ_ne_self _).symm
  obtain ⟨u, v, w, hu, hcons, hprod, hv, hw, hleft⟩ := consFirst_queue hs hget
    (queueStep_put_of_room b hroom)
  obtain rfl := eq_byte_of_answer hv
  obtain rfl := eq_stored_of_answer hw
  exact ⟨u, hu, hcons, hprod, hleft⟩

/-- On a live state neither empty nor full, PUT and GET commute: they use different cells and
different pairs, and each leaves the other its room and its byte. -/
theorem inSequence_put_get_comm {b : Byte} (hs : s.Live) (he : s.isEmpty = false)
    (hf : s.isFull = false) :
    ∃ u, inSequence .prod (.put b) .cons .get s = .next u ∧
      inSequence .cons .get .prod (.put b) s = .next u ∧ u.occ = s.occ := by
  obtain ⟨hr, hm, -⟩ := hs.ring
  obtain ⟨c, hc⟩ := hs.exists_oldest he
  have hput := execPut_of_room (b := b) (hs.withPort .prod) rfl hf
  have hget := execGet_of_data (hs.withPort .cons) rfl he hc
  have hoccPut := occ_advanceWrite hr hm hf
  have hoccGet := occ_advanceRead hr hm he
  have hle : s.occ ≤ s.cfg.cap := occ_le_cap hr
  have hcell : Memory.read (Memory.write s.stor s.wIdx b) s.rIdx = some c :=
    (memory_read_write_other _ _ (rIdx_ne_wIdx hs he hf)).trans hc
  have hdata : s.advanceWrite.isEmpty = false := decide_eq_false (by omega)
  have hroom : s.advanceRead.isFull = false := decide_eq_false (by rw [advanceRead_cfg]; omega)
  have hputLive : State.Live _ := exec_live (i := .put b) (hs.withPort .prod) hput
  have hgetLive : State.Live _ := exec_live (i := .get) (hs.withPort .cons) hget
  have hgetAfter := execGet_of_data (hputLive.withPort .cons) rfl hdata hcell
  have hputAfter := execPut_of_room (b := b) (hgetLive.withPort .prod) rfl hroom
  refine ⟨_, inSequence_of_next (i := .put b) (j := .get) hput hgetAfter,
    (inSequence_of_next (i := .get) (j := .put b) hget hputAfter).trans rfl, ?_⟩
  have hoccBoth : s.advanceWrite.advanceRead.occ + 1 = s.advanceWrite.occ := occ_advanceRead
    (indicesInRange_advanceWrite hr) (mirrorsMatch_advanceWrite hr hm hf) hdata
  exact Nat.succ.inj (hoccBoth.trans hoccPut)

/-! ### The word a port serves -/

/-- What a move that issues no word leaves alone: the ring, the responses and the inbox. -/
structure KeepsBuffer (s t : State) : Prop where
  ring : t.ring = s.ring
  resp : t.resp = s.resp
  inbox : t.inbox = s.inbox

/-- What does nothing leaves the buffer alone. -/
theorem KeepsBuffer.refl (s : State) : KeepsBuffer s s := ⟨rfl, rfl, rfl⟩

/-- A `release` is no business of the buffer's (60_exceptions.md R124). -/
theorem release_keepsBuffer (h : release s = .next t) : KeepsBuffer s t := by
  obtain ⟨-, rfl⟩ := release_eq_next.1 h
  exact ⟨rfl, rfl, rfl⟩

/-- The word that stands on a port in a step. -/
def portWord (k : Tick) (s : State) : Port → Option Word
  | .prod => prodWord k s
  | .cons => consWord k s
  | .ctrl => k.ctrl

/-- Without a word on PROD, the producer's side leaves the buffer alone. -/
theorem servePort_prod_quiet {k : Tick} (hw : prodWord k s = none)
    (h : servePort k .prod s = .next t) : KeepsBuffer s t := by
  rcases hk : k.prod with _ | m
  · simp only [servePort, hk, Host.Outcome.next.injEq] at h
    exact h ▸ .refl s
  have hmove : producerMove m s = .next t := by simpa [servePort, hk] using h
  cases m with
  | word w => simp [prodWord, hk] at hw
  | interrupt =>
    cases hmove
    rw [interrupt_eq]
    exact ⟨rfl, rfl, rfl⟩
  | run =>
    rcases producerRun_eq_next.1 hmove with
      ⟨-, rfl⟩ | ⟨-, rfl⟩ | ⟨b, q, -, -, rfl⟩ | ⟨b, v, hp, -, -⟩ | ⟨v, -, hv, rfl⟩
    · exact .refl t
    · exact ⟨rfl, rfl, rfl⟩
    · exact ⟨rfl, rfl, rfl⟩
    · simp [prodWord, hk, hp] at hw
    · obtain ⟨hring, hresp, hinbox⟩ := release_keepsBuffer hv
      exact ⟨hring, hresp, hinbox⟩
  | release =>
    simp only [producerMove, producerRelease] at hmove
    split at hmove
    · exact release_keepsBuffer hmove
    all_goals cases hmove; exact .refl s
  | take x => cases hmove

/-- A word on PROD is issued there, and nothing else is done to the buffer. -/
theorem servePort_prod_issues {k : Tick} {w : Word} (hw : prodWord k s = some w)
    (h : servePort k .prod s = .next t) : ∃ v, issue .prod w s = .next v ∧ KeepsBuffer v t := by
  unfold prodWord at hw
  split at hw
  next hk =>
    cases hw
    exact ⟨t, by simpa [servePort, hk, producerMove] using h, .refl t⟩
  next hk hp =>
    cases hw
    simp only [servePort, hk, producerMove, producerRun, hp, andThen_eq_next,
      Host.Outcome.next.injEq] at h
    obtain ⟨v, hv, rfl⟩ := h
    exact ⟨v, hv, rfl, rfl, rfl⟩
  next => cases hw

/-- Without a word on CONS, the consumer's side leaves the buffer alone. -/
theorem servePort_cons_quiet {k : Tick} (hw : consWord k s = none)
    (h : servePort k .cons s = .next t) : KeepsBuffer s t := by
  rcases servePort_cons_eq_next.1 h with ⟨-, rfl⟩ | ⟨w, hk, -⟩ | ⟨m, hk, hword, hmove⟩
  · exact .refl t
  · simp [consWord, hk] at hw
  have hnote : KeepsBuffer s s.noteStuck := ⟨rfl, rfl, rfl⟩
  cases m with
  | word w => exact absurd rfl (hword w)
  | call x =>
    cases hmove
    unfold consumerCall
    split_ifs
    all_goals exact ⟨rfl, rfl, rfl⟩
  | run e =>
    rcases consumerRun_eq_next.1 hmove with
      ⟨-, rfl⟩ | ⟨r, -, rfl⟩ | ⟨x, v, hc, -, -⟩ | ⟨x, w, -, rfl⟩ | ⟨x, -, rfl⟩
    · exact hnote
    · exact hnote
    · rw [noteStuck_consumer] at hc
      simp [consWord, hk, hc] at hw
    · exact ⟨rfl, rfl, rfl⟩
    · exact ⟨rfl, rfl, rfl⟩
  | release =>
    simp only [consumerMove, consumerRelease] at hmove
    split_ifs at hmove
    · cases hmove
      exact hnote
    · obtain ⟨hring, hresp, hinbox⟩ := release_keepsBuffer hmove
      exact ⟨hring, hresp, hinbox⟩
  | take x =>
    cases hmove
    unfold consumerTake
    split_ifs
    all_goals exact ⟨rfl, rfl, rfl⟩

/-- A word on CONS is issued there, and nothing else is done to the buffer. -/
theorem servePort_cons_issues {k : Tick} {w : Word} (hw : consWord k s = some w)
    (h : servePort k .cons s = .next t) : ∃ v, issue .cons w s = .next v ∧ KeepsBuffer v t := by
  unfold consWord at hw
  split at hw
  next hk =>
    cases hw
    exact ⟨t, by simpa [servePort, hk, consumerMove] using h, .refl t⟩
  next hk hc =>
    cases hw
    have hfree : s.consumerStuck = false := by simp [State.consumerStuck, hc]
    simp only [servePort, hk, consumerMove, noteStuck_eq_self s hfree, consumerRun, hc,
      andThen_eq_next, Host.Outcome.next.injEq] at h
    obtain ⟨v, hv, rfl⟩ := h
    exact ⟨v, hv, rfl, rfl, rfl⟩
  next => cases hw

/-- What a port does to the buffer in a step: nothing without a word, else what the word does. -/
theorem servePort_buffer {k : Tick} {p : Port} (h : servePort k p s = .next t) :
    (portWord k s p = none ∧ KeepsBuffer s t) ∨
    ∃ w v, portWord k s p = some w ∧ issue p w s = .next v ∧ KeepsBuffer v t := by
  cases hw : portWord k s p with
  | none =>
    refine .inl ⟨rfl, ?_⟩
    cases p with
    | prod => exact servePort_prod_quiet hw h
    | cons => exact servePort_cons_quiet hw h
    | ctrl =>
      have hc : k.ctrl = none := hw
      simp only [servePort, hc, Host.Outcome.next.injEq] at h
      exact h ▸ .refl s
  | some w =>
    refine .inr ⟨w, ?_⟩
    cases p with
    | prod =>
      obtain ⟨v, hv, hkeep⟩ := servePort_prod_issues hw h
      exact ⟨v, rfl, hv, hkeep⟩
    | cons =>
      obtain ⟨v, hv, hkeep⟩ := servePort_cons_issues hw h
      exact ⟨v, rfl, hv, hkeep⟩
    | ctrl =>
      have hc : k.ctrl = some w := hw
      simp only [servePort, hc] at h
      exact ⟨t, rfl, h, .refl t⟩

/-- No port touches the inbox. -/
theorem servePort_inbox {k : Tick} {p : Port} (h : servePort k p s = .next t) : t.inbox = s.inbox := by
  obtain ⟨-, hkeep⟩ | ⟨w, v, -, hv, hkeep⟩ := servePort_buffer h
  · exact hkeep.inbox
  · obtain ⟨i, -, hi⟩ := issue_eq_next.1 hv
    exact hkeep.inbox.trans (exec_keepsInputs hi).1

/-- A step takes the first tick of the inbox (log entry 4). -/
theorem step_inbox (h : step s = .next t) : t.inbox = s.inbox.tail := by
  obtain ⟨-, hrun⟩ := step_eq_next.1 h
  obtain ⟨u, hserve, rfl⟩ := runTick_eq_next.1 hrun
  exact servePorts_rel (R := fun a b => b.inbox = a.inbox) (fun _ => rfl) (fun h1 h2 => h2.trans h1)
    (fun _ _ _ _ => servePort_inbox) hserve

/-- Every port keeps the configuration and `init`. -/
theorem servePort_keepsSetup {k : Tick} {p : Port} (h : servePort k p s = .next t) :
    KeepsSetup s t := by
  by_cases hp : p = .cons
  · subst hp
    exact servePort_cons_keepsSetup h
  · exact (servePort_keepsConsumer hp h).toKeepsSetup

/-- A port leaves a live state live. -/
theorem servePort_live {k : Tick} {p : Port} (hs : s.Live) (h : servePort k p s = .next t) : t.Live :=
  ⟨servePort_inv h hs.1, (servePort_keepsSetup h).init hs.2⟩

/-- What a port does to a live buffer in a step: nothing without a word, else one step of the queue,
answered on that port. -/
theorem servePort_queue {k : Tick} {p : Port} (hs : s.Live) (h : servePort k p s = .next t) :
    (t.resp = s.resp ∧ t.contents = s.contents) ∨
    ∃ w i r, portWord k s p = some w ∧ decode w = .command i ∧ portAccepts p i = true ∧
      t.resp = s.resp.put p r ∧ r.answer = (queueStep s.cfg.cap s.contents i).2 ∧
      t.contents = (queueStep s.cfg.cap s.contents i).1 := by
  have hcfg : t.cfg = s.cfg := (servePort_keepsSetup h).cfg
  obtain ⟨-, hkeep⟩ | ⟨w, v, hw, hv, hkeep⟩ := servePort_buffer h
  · exact .inl ⟨hkeep.resp, contents_congr hkeep.ring hcfg⟩
  · obtain ⟨i, hd, hi⟩ := issue_eq_next.1 hv
    have hcfg' : t.cfg = v.cfg := hcfg.trans (issue_keepsConsumer hv).cfg.symm
    obtain ⟨r, hresp, hanswer, hleft⟩ := (hs.withPort p).exec_queue hi
    exact .inr ⟨w, i, r, hw, hd, exec_accepted hi, hkeep.resp.trans hresp, hanswer,
      (contents_congr hkeep.ring hcfg').trans hleft⟩

/-! ### What a step delivers -/

/-- What has been observed of a tick from `s` up to the state `a` inside it accounts for the bytes
held: those held at first and then those accepted are those returned and then those held now. -/
def Delivers (k : Tick) (s a : State) : Prop :=
  s.contents ++ (tickLog k s a).accepted = (tickLog k s a).returned ++ a.contents

/-- A port whose answer is neither a PUT's nor a GET's delivers nothing. -/
theorem Delivers.congr {k : Tick} {a b : State} (h : Delivers k s a)
    (hprod : loggedPut (putByte (prodWord k s)) b.resp.prod =
      loggedPut (putByte (prodWord k s)) a.resp.prod)
    (hcons : loggedGet b.resp.cons = loggedGet a.resp.cons) (hleft : b.contents = a.contents) :
    Delivers k s b := by
  simpa only [Delivers, tickLog, Log.accepted, hprod, hcons, hleft] using h

/-- A byte that PROD accepts joins the end of the bytes held. -/
theorem servePort_prod_delivers {k : Tick} {a b : State} (ha : a.Live) (hfresh : a.resp.prod = none)
    (hproducer : a.producer = s.producer) (hdel : Delivers k s a)
    (h : servePort k .prod a = .next b) : Delivers k s b := by
  obtain ⟨hresp, hleft⟩ | ⟨w, i, r, hw, hd, hport, hresp, hanswer, hleft⟩ := servePort_queue ha h
  · exact hdel.congr (by rw [hresp]) (by rw [hresp]) hleft
  have hword : prodWord k s = some w := by rw [← hw, portWord, prodWord, prodWord, hproducer]
  cases i with
  | init => cases hport
  | get => cases hport
  | len =>
    obtain rfl := eq_count_of_answer hanswer
    exact hdel.congr (by simp [hresp, hfresh, Responses.put, loggedPut])
      (by simp [hresp, Responses.put]) hleft
  | put c =>
    have hbyte : putByte (prodWord k s) = some c := by simp [hword, putByte, hd]
    by_cases hfull : a.contents.length = a.cfg.cap
    · rw [queueStep_put_of_full c hfull] at hanswer hleft
      obtain rfl := eq_stored_of_answer hanswer
      simpa [Delivers, tickLog, Log.accepted, hbyte, loggedPut, hresp, hfresh, Responses.put, hleft]
        using hdel
    · rw [queueStep_put_of_room c hfull] at hanswer hleft
      obtain rfl := eq_stored_of_answer hanswer
      have hbefore : s.contents = loggedGet a.resp.cons ++ a.contents := by
        simpa [Delivers, tickLog, Log.accepted, hfresh, loggedPut] using hdel
      simp [Delivers, tickLog, Log.accepted, hbyte, loggedPut, hresp, Responses.put, hleft, hbefore]

/-- A byte that CONS returns was the first of the bytes held. -/
theorem servePort_cons_delivers {k : Tick} {a b : State} (ha : a.Live) (hfresh : a.resp.cons = none)
    (hdel : Delivers k s a) (h : servePort k .cons a = .next b) : Delivers k s b := by
  obtain ⟨hresp, hleft⟩ | ⟨w, i, r, -, -, hport, hresp, hanswer, hleft⟩ := servePort_queue ha h
  · exact hdel.congr (by rw [hresp]) (by rw [hresp]) hleft
  cases i with
  | init => cases hport
  | put c => cases hport
  | len =>
    obtain rfl := eq_count_of_answer hanswer
    exact hdel.congr (by simp [hresp, Responses.put])
      (by simp [hresp, hfresh, Responses.put, loggedGet]) hleft
  | get =>
    cases hq : a.contents with
    | nil =>
      rw [hq] at hanswer hleft
      obtain ⟨d, rfl⟩ := eq_noData_of_answer hanswer
      exact hdel.congr (by simp [hresp, Responses.put])
        (by simp [hresp, hfresh, Responses.put, loggedGet]) (hleft.trans hq.symm)
    | cons c q =>
      rw [hq] at hanswer hleft
      obtain rfl := eq_byte_of_answer hanswer
      have hrest : b.contents = q := hleft
      simpa [Delivers, tickLog, hresp, hfresh, Responses.put, loggedGet, hrest, hq, Log.accepted]
        using hdel

/-- Without INIT, CTRL delivers nothing: only LEN answers there. -/
theorem servePort_ctrl_delivers {k : Tick} {a b : State} (ha : a.Live) (hk : k.noInit)
    (hdel : Delivers k s a) (h : servePort k .ctrl a = .next b) : Delivers k s b := by
  obtain ⟨hresp, hleft⟩ | ⟨w, i, r, hw, hd, hport, hresp, -, hleft⟩ := servePort_queue ha h
  · exact hdel.congr (by rw [hresp]) (by rw [hresp]) hleft
  cases i with
  | init => exact absurd (hw.trans (by rw [eq_encode_init_of_decode hd])) hk
  | put c => cases hport
  | get => cases hport
  | len => exact hdel.congr (by simp [hresp, Responses.put]) (by simp [hresp, Responses.put]) hleft

/-- Every port keeps the account, where it has not answered yet and PROD's routine stands where the
step found it. -/
theorem servePort_delivers {k : Tick} {p : Port} {a b : State} (ha : a.Live) (hk : k.noInit)
    (hfresh : a.resp.at p = none) (hproducer : p = .prod → a.producer = s.producer)
    (hdel : Delivers k s a) (h : servePort k p a = .next b) : Delivers k s b := by
  cases p with
  | prod => exact servePort_prod_delivers ha hfresh (hproducer rfl) hdel h
  | cons => exact servePort_cons_delivers ha hfresh hdel h
  | ctrl => exact servePort_ctrl_delivers ha hk hdel h

/-- A port answers on no other port. -/
theorem servePort_resp_other {k : Tick} {p q : Port} (hs : s.Live) (hqp : q ≠ p)
    (h : servePort k p s = .next t) : t.resp.at q = s.resp.at q := by
  obtain ⟨hresp, -⟩ | ⟨w, i, r, -, -, -, hresp, -, -⟩ := servePort_queue hs h
  · rw [hresp]
  · rw [hresp, at_put_other _ _ hqp]

/-- Ports served one after another keep the account, each served once. -/
theorem servePorts_delivers {k : Tick} {ps : List Port} {a b : State} (hk : k.noInit) (ha : a.Live)
    (hnodup : ps.Nodup) (hfresh : ∀ p ∈ ps, a.resp.at p = none)
    (hproducer : .prod ∈ ps → a.producer = s.producer) (hdel : Delivers k s a)
    (h : servePorts k ps a = .next b) : Delivers k s b := by
  induction ps generalizing a with
  | nil => cases h; exact hdel
  | cons p ps ih =>
    obtain ⟨u, hu, hrest⟩ := servePorts_cons_eq_next.1 h
    obtain ⟨hp, hps⟩ := List.nodup_cons.1 hnodup
    refine ih (servePort_live ha hu) hps (fun q hq => ?_) (fun hq => ?_) ?_ hrest
    · have hqp : q ≠ p := fun hqp => hp (hqp ▸ hq)
      rw [servePort_resp_other ha hqp hu, hfresh q (List.mem_cons_of_mem _ hq)]
    · have hpprod : p ≠ .prod := fun hpp => hp (hpp ▸ hq)
      exact (servePort_writeSide hk hpprod hu).2.trans (hproducer (List.mem_cons_of_mem _ hq))
    · exact servePort_delivers ha hk (hfresh p List.mem_cons_self)
        (fun hpp => hproducer (hpp ▸ List.mem_cons_self)) hdel hu

/-- No port is served twice in a step. -/
theorem portOrder_nodup (k : Tick) : (portOrder k).Nodup := by
  unfold portOrder
  split_ifs <;> cases k.order <;> decide

/-- A step without INIT accounts for the bytes held (20_memory.md R51). -/
theorem step_delivers (hs : s.Live) (hk : (nextTick s).noInit) (h : step s = .next t) :
    Delivers (nextTick s) s t := by
  obtain ⟨-, hrun⟩ := step_eq_next.1 h
  obtain ⟨u, hserve, rfl⟩ := runTick_eq_next.1 hrun
  have hlive : (beginTick (nextTick s) (takeTick s)).Live :=
    ⟨beginTick_inv (show (takeTick s).Inv from hs.1), hs.2⟩
  have hbegin : Delivers (nextTick s) s (beginTick (nextTick s) (takeTick s)) := by
    simp [Delivers, tickLog, Log.accepted, loggedPut, loggedGet]
  have hfresh : ∀ p ∈ portOrder (nextTick s),
      (beginTick (nextTick s) (takeTick s)).resp.at p = none := fun p _ => by cases p <;> rfl
  have hports : Delivers (nextTick s) s u :=
    servePorts_delivers hk hlive (portOrder_nodup _) hfresh (fun _ => rfl) hbegin hserve
  exact hports

/-! ### What a run delivers -/

/-- A step leaves a live state live. -/
theorem step_live (hs : s.Live) (h : step s = .next t) : t.Live := by
  obtain ⟨-, hrun⟩ := step_eq_next.1 h
  exact ⟨runTick_inv hrun (show (takeTick s).Inv from hs.1), (step_keepsSetup h).init hs.2⟩

/-- Where no INIT is in the inbox, the next step has none. -/
theorem nextTick_noInit (h : ∀ x ∈ s.inbox, x.noInit) : (nextTick s).noInit := by
  cases hi : s.inbox with
  | nil => simp [nextTick, hi, Tick.noInit, Tick.quiet]
  | cons k rest => simpa [nextTick, hi] using h k (hi ▸ List.mem_cons_self)

/-- The bytes accepted in two stretches of a run. -/
theorem accepted_append (l m : Log) : (l.append m).accepted = l.accepted ++ m.accepted := by
  simp [Log.accepted, Log.append]

/-- A run that goes on is a step and the run after it, and so is its log. -/
theorem logRun_succ_eq_next {n : Nat} {l : Log} :
    logRun (n + 1) s = .next (t, l) ↔ ∃ u m, step s = .next u ∧ logRun n u = .next (t, m) ∧
      l = (tickLog (nextTick s) s u).append m := by
  simp only [logRun, andThen_eq_next, Host.Outcome.next.injEq, Prod.mk.injEq]
  constructor
  · rintro ⟨u, hu, ⟨v, m⟩, hv, rfl, rfl⟩
    exact ⟨u, m, hu, hv, rfl⟩
  · rintro ⟨u, m, hu, hm, rfl⟩
    exact ⟨u, hu, (t, m), hm, rfl, rfl⟩

end

/-! ### The obligations -/

/-- Settles O37: by induction on the commands, each of them one step of the queue. -/
theorem blockImplementsQueue : Obligations.BlockImplementsQueue := by
  unfold Obligations.BlockImplementsQueue
  intro is
  induction is with
  | nil => exact fun s hs _ => ⟨s, [], rfl, hs, rfl, rfl⟩
  | cons i is ih =>
    intro s hs hbusy
    obtain ⟨u, hu⟩ := (hs.withPort (homePort i)).exec_completes (portAccepts_homePort i) fun _ => hbusy
    have hlive : u.Live := exec_live (hs.withPort (homePort i)) hu
    have hcap : u.cfg = s.cfg := (exec_keepsConsumer hu).cfg
    have hfree : u.dataBusy = false := (exec_keepsInputs hu).2.trans hbusy
    obtain ⟨r, hresp, hanswer, hcontents⟩ := (hs.withPort (homePort i)).exec_queue hu
    obtain ⟨t, answers, hrun, ht, hanswers, hleft⟩ := ih u hlive hfree
    rw [hcap, hcontents] at hanswers hleft
    refine ⟨t, (u.resp.at (homePort i)).map Response.answer :: answers, ?_, ht, ?_, hleft⟩
    · simp [runCommands, hu, hrun]
    · simp [queueRun, hresp, hanswer, hanswers]

/-- Settles O29: the cell exists before and after, and a read sees the last write to its own cell. -/
theorem cellReadsLastWrite : Obligations.CellReadsLastWrite := by
  unfold Obligations.CellReadsLastWrite
  intro s i b hi
  refine ⟨_, writeCell_eq_next.2 ⟨hi, rfl⟩, readCell_eq_next.2 ⟨hi, memory_read_write_same _ _ _⟩,
    fun j hj => ?_, rfl⟩
  simp only [readCell, memory_read_write_other s.stor b hj]

/-- Settles O11: LEN only responds; INIT clears the ring and responds on CTRL, the one port that
accepts it. -/
theorem initAndLenFrames : Obligations.InitAndLenFrames := by
  unfold Obligations.InitAndLenFrames
  refine ⟨fun s t h => ?_, fun s t h => ?_⟩
  · obtain ⟨-, rfl⟩ := execLen_eq_next.1 h
    rfl
  · have hport : s.port = .ctrl := portAccepts_init.1 (exec_accepted h)
    obtain ⟨-, rfl⟩ := execInit_eq_next.1 h
    simp [Responses.put, hport]

/-- Settles O53: every move answers with one of the stages, and each of them keeps the invariant. -/
theorem splitStagesKeepInvariant : Obligations.SplitStagesKeepInvariant := by
  unfold Obligations.SplitStagesKeepInvariant
  intro m x hx
  obtain ⟨y, hstep, hstage⟩ := splitStep_stage hx m
  exact ⟨y, hstep, hstage.inv hx⟩

/-- Settles O54: the stages that complete a command are the atomic one's, the others are silent. -/
theorem splitCommandsAreAtomic : Obligations.SplitCommandsAreAtomic := by
  unfold Obligations.SplitCommandsAreAtomic
  intro m x y hx h
  obtain ⟨z, hstep, hstage⟩ := splitStep_stage hx m
  obtain rfl : z = y := by simpa [h, eq_comm] using hstep
  cases hc : splitCompletes m x with
  | some i => exact (hc ▸ hstage).exec_eq hx
  | none => exact (hc ▸ hstage).silent hx

/-- Settles O19: with no INIT beside them the commands are served in the order of the tick. -/
theorem everyPortOrderIsAdmitted : Obligations.EveryPortOrderIsAdmitted := by
  unfold Obligations.EveryPortOrderIsAdmitted
  refine ⟨fun l => exists_order_of_perm, ?_⟩
  intro s t rest ip ic is p q r hwf hinbox hprod hcons hctrl his horder
  exact step_of_presents hwf hinbox ⟨hprod, hcons, hctrl⟩ his horder

/-- Settles O20: away from the limits the two commands commute. -/
theorem ordersAgreeAwayFromLimits : Obligations.OrdersAgreeAwayFromLimits := by
  unfold Obligations.OrdersAgreeAwayFromLimits
  intro s b rest hs he hf tick
  obtain ⟨u, hprod, hcons, hocc⟩ := inSequence_put_get_comm (b := b) (putGetStart_live b rest hs) he hf
  have hpcs := (step_putGet_prodFirst b rest hs).trans hprod
  have hcps := (step_putGet_consFirst b rest hs).trans hcons
  exact ⟨hpcs.trans hcps.symm, u, hpcs, hocc⟩

/-- Settles O57: the two orders are the two orders on the queue, which differ where it is empty or
full. -/
theorem ordersDifferAtTheLimits : Obligations.OrdersDifferAtTheLimits := by
  unfold Obligations.OrdersDifferAtTheLimits
  intro s b rest hs run
  have hstart := putGetStart_live b rest hs
  have hpcs := step_putGet_prodFirst b rest hs
  have hcps := step_putGet_consFirst b rest hs
  refine ⟨fun he => ?_, fun hf => ?_⟩
  · obtain ⟨u, hu, hprod⟩ := prodFirst_of_empty b hstart he
    obtain ⟨v, d, hv, hcons⟩ := consFirst_of_empty b hstart he
    exact ⟨⟨u, hpcs.trans hu, hprod⟩, v, d, hcps.trans hv, hcons⟩
  · obtain ⟨h, q, hq⟩ := List.exists_cons_of_length_pos (hs.length_of_isFull hf ▸ hs.cap_pos)
    obtain ⟨u, hu, hprod⟩ := prodFirst_of_full b hstart hf hq
    obtain ⟨v, hv, hcons⟩ := consFirst_of_full b hstart hf hq
    exact ⟨h, q, hq, ⟨u, hpcs.trans hu, hprod⟩, v, hcps.trans hv, hcons⟩

/-- Settles O39: by induction on the steps, each of which accounts for the bytes held. -/
theorem bytesLeaveInOrder : Obligations.BytesLeaveInOrder := by
  unfold Obligations.BytesLeaveInOrder
  intro n
  induction n with
  | zero =>
    intro s t l _ _ h
    cases h
    simp [Log.accepted]
  | succ n ih =>
    intro s t l hs hinbox h
    obtain ⟨u, m, hu, hm, rfl⟩ := logRun_succ_eq_next.1 h
    have hfirst := step_delivers hs (nextTick_noInit hinbox) hu
    have hinbox' : ∀ x ∈ u.inbox, x.noInit := fun x hx =>
      hinbox x (List.mem_of_mem_tail (step_inbox hu ▸ hx))
    have hrest := ih u t m (step_live hs hu) hinbox' hm
    calc s.contents ++ ((tickLog (nextTick s) s u).append m).accepted
        = (s.contents ++ (tickLog (nextTick s) s u).accepted) ++ m.accepted := by
          rw [accepted_append, List.append_assoc]
      _ = (tickLog (nextTick s) s u).returned ++ (u.contents ++ m.accepted) := by
          rw [hfirst, List.append_assoc]
      _ = ((tickLog (nextTick s) s u).append m).returned ++ t.contents := by
          rw [hrest, ← List.append_assoc]
          rfl

end Sys2Proof.Machine

/-! PROOFS. The family of 30_encoding.md: the opcode map (R61 to R66, R69), the checks of a word and
their order (R67, R69), the step that is presented one word (R60), the response word (R64) and the
assembler's form (R70 to R72). -/

namespace Sys2Proof.Machine

open Sys2Proof

/-! ### The opcode map -/

/-- The two decodings of a word: a command, whose word it is, or reserved, and then neither PUT nor
with an empty `data` field (30_encoding.md R66, R69). -/
theorem decode_cases (w : Word) :
    (∃ i, decode w = .command i ∧ encode i = w) ∨
      (decode w = .reserved w ∧ opField w ≠ 0b01#2 ∧ dataField w ≠ 0x00#8) := by
  have hfields := opField_append_dataField w
  have hreserved {op : BitVec 2} (hop : opField w = op) (hne : op ≠ 0b01#2) : opField w ≠ 0b01#2 :=
    hop ▸ hne
  unfold decode
  split
  next h =>
    have hop : opField w = 0b00#2 := BitVec.eq_of_toNat_eq h
    split_ifs with hd
    · exact .inl ⟨.init, rfl, by rwa [hop, hd] at hfields⟩
    · exact .inr ⟨rfl, hreserved hop (by decide), hd⟩
  next h =>
    have hop : opField w = 0b01#2 := BitVec.eq_of_toNat_eq h
    exact .inl ⟨.put (dataField w), rfl, by rwa [hop] at hfields⟩
  next h =>
    have hop : opField w = 0b10#2 := BitVec.eq_of_toNat_eq h
    split_ifs with hd
    · exact .inl ⟨.get, rfl, by rwa [hop, hd] at hfields⟩
    · exact .inr ⟨rfl, hreserved hop (by decide), hd⟩
  next h0 h1 h2 =>
    have hlt : (opField w).toNat < 4 := (opField w).isLt
    rw [imp_false] at h0 h1 h2
    have h3 : (opField w).toNat = 3 := by omega
    have hop : opField w = 0b11#2 := BitVec.eq_of_toNat_eq h3
    split_ifs with hd
    · exact .inl ⟨.len, rfl, by rwa [hop, hd] at hfields⟩
    · exact .inr ⟨rfl, hreserved hop (by decide), hd⟩

/-- A word decodes to a command exactly when it is that command's word (30_encoding.md R62). -/
theorem decode_eq_command_iff {w : Word} {i : Instr} : decode w = .command i ↔ encode i = w := by
  constructor
  · intro h
    obtain ⟨j, hj, hw⟩ | ⟨hr, -⟩ := decode_cases w
    · obtain rfl : j = i := by simpa [hj] using h
      exact hw
    · simp [hr] at h
  · rintro rfl
    exact decode_encode i

/-- A reserved word is reported as itself (30_encoding.md R69). -/
theorem eq_of_decode_eq_reserved {w v : Word} (h : decode w = .reserved v) : v = w := by
  obtain ⟨i, hi, -⟩ | ⟨hr, -⟩ := decode_cases w
  · simp [hi] at h
  · simpa [hr, eq_comm] using h

/-- The words of commands are PUT's and those with an empty `data` field (30_encoding.md R62). -/
theorem fields_encode (i : Instr) :
    opField (encode i) = 0b01#2 ∨ dataField (encode i) = 0x00#8 := by
  cases i with
  | init => exact .inr rfl
  | put b => exact .inl (opField_append 0b01#2 b).1
  | get => exact .inr rfl
  | len => exact .inr rfl

/-- The reserved words are those of the other three operations with data (30_encoding.md R66). -/
theorem decode_eq_reserved_iff {w : Word} :
    decode w = .reserved w ↔ opField w ≠ 0b01#2 ∧ dataField w ≠ 0x00#8 := by
  obtain ⟨i, hi, rfl⟩ | ⟨hr, hfields⟩ := decode_cases w
  · have hfields := fields_encode i
    simp only [hi, reduceCtorEq, false_iff]
    tauto
  · exact ⟨fun _ => hfields, fun _ => hr⟩

/-! ### The count of the reserved words -/

/-- Whether the word numbered `n` is reserved. -/
def reservedNumber (n : Nat) : Bool :=
  decide (decode (BitVec.ofNat 10 n) = .reserved (BitVec.ofNat 10 n))

/-- The words of one operation are the 256 numbers from `256 * op` on (30_encoding.md R61). -/
theorem reservedNumber_block {op k : Nat} (hop : op < 4) (hk : k < 256) :
    reservedNumber (256 * op + k) = (decide (op ≠ 1) && decide (k ≠ 0)) := by
  have hword : BitVec.ofNat 10 (256 * op + k) = BitVec.ofNat 2 op ++ BitVec.ofNat 8 k := by
    apply BitVec.eq_of_toNat_eq
    rw [BitVec.toNat_append, ← Nat.shiftLeft_add_eq_or_of_lt (BitVec.ofNat 8 k).isLt]
    simp only [BitVec.toNat_ofNat, Nat.shiftLeft_eq]
    omega
  obtain ⟨hopField, hdata⟩ := opField_append (BitVec.ofNat 2 op) (BitVec.ofNat 8 k)
  have hop1 : BitVec.ofNat 2 op ≠ 0b01#2 ↔ op ≠ 1 := by
    rw [ne_eq, ← BitVec.toNat_inj]
    simp only [BitVec.toNat_ofNat]
    omega
  have hk0 : BitVec.ofNat 8 k ≠ 0x00#8 ↔ k ≠ 0 := by
    rw [ne_eq, ← BitVec.toNat_inj]
    simp only [BitVec.toNat_ofNat]
    omega
  simp only [reservedNumber, hword, decode_eq_reserved_iff, hopField, hdata, hop1, hk0,
    Bool.decide_and]

/-- Every operation but PUT has 255 reserved words, PUT has none (30_encoding.md R66). -/
theorem length_reserved_block {op : Nat} (hop : op < 4) :
    ((List.range 256).filter fun k => reservedNumber (256 * op + k)).length =
      if op = 1 then 0 else 255 := by
  have hblock : ((List.range 256).filter fun k => reservedNumber (256 * op + k)) =
      (List.range 256).filter fun k => decide (op ≠ 1) && decide (k ≠ 0) :=
    List.filter_congr fun k hk => reservedNumber_block hop (List.mem_range.1 hk)
  rw [hblock]
  split_ifs with h1
  · simp [h1]
  · have hrest : (List.range 255).filter ((fun k => decide (k ≠ 0)) ∘ Nat.succ) = List.range 255 :=
      List.filter_eq_self.2 fun k _ => decide_eq_true k.succ_ne_zero
    simp only [List.range_succ_eq_map (n := 255), decide_eq_true h1, Bool.true_and]
    rw [List.filter_cons_of_neg (by decide), List.filter_map, hrest, List.length_map,
      List.length_range]

/-- The numbers below `256 * (m + 1)` are those of the first `m` operations and of the next one. -/
theorem length_filter_range_block (p : Nat → Bool) (m : Nat) :
    ((List.range (256 * (m + 1))).filter p).length =
      ((List.range (256 * m)).filter p).length +
        ((List.range 256).filter fun k => p (256 * m + k)).length := by
  rw [Nat.mul_succ, List.range_add, List.filter_append, List.filter_map, List.length_append,
    List.length_map]
  rfl

/-- There are 3 × 255 reserved words (30_encoding.md R66). -/
theorem length_reserved : ((List.range 1024).filter reservedNumber).length = 765 := by
  calc ((List.range (256 * 4)).filter reservedNumber).length
      = 0 + 255 + 0 + 255 + 255 := by
        simp only [length_filter_range_block, length_reserved_block, Nat.reduceLT, Nat.reduceEqDiff]
        rfl
    _ = 765 := rfl

/-! ### The rows -/

/-- The word of a command carries the fixed bits of its row (30_encoding.md R62). -/
theorem encode_and_rowMask : (i : Instr) → encode i &&& rowMask i = rowMatch i
  | .init => Laws.RowBits.init.2
  | .put b => (Laws.RowBits.put b).2
  | .get => Laws.RowBits.get.2
  | .len => Laws.RowBits.len.2

/-- A word with the fixed bits of a row whose bits are all fixed is that row's word. -/
theorem decode_of_fixedRow {w : Word} {i : Instr} (hmask : rowMask i = BitVec.allOnes 10)
    (hword : encode i = rowMatch i) : w &&& rowMask i = rowMatch i ↔ decode w = .command i := by
  rw [hmask, BitVec.and_allOnes, decode_eq_command_iff, hword, eq_comm]

/-- PUT's row fixes the `op` field only, and the `data` field is its byte (30_encoding.md R62, R63). -/
theorem decode_of_putRow {w : Word} :
    w &&& 0x300#10 = 0x100#10 ↔ decode w = .command (.put (w.setWidth 8)) := by
  have hdata : w.setWidth 8 = dataField w := BitVec.setWidth_eq_extractLsb' (by decide)
  have hmask : w &&& 0x300#10 = opField w ++ 0x00#8 := by
    calc w &&& 0x300#10
        = (opField w ++ dataField w) &&& (BitVec.allOnes 2 ++ 0x00#8) := by
          rw [opField_append_dataField]; rfl
      _ = opField w ++ 0x00#8 := by rw [BitVec.and_append, BitVec.and_allOnes, BitVec.and_zero]
  rw [hmask, show 0x100#10 = 0b01#2 ++ 0x00#8 from rfl, BitVec.append_left_inj, hdata,
    decode_eq_command_iff]
  constructor
  · intro hop
    rw [encode, ← hop, opField_append_dataField]
  · intro hw
    rw [← hw]
    exact (opField_append 0b01#2 _).1

/-- A word that no row's match and mask select is reserved (30_encoding.md R62, R65). -/
theorem decode_eq_reserved_of_noRow {w : Word} (h : ∀ i, w &&& rowMask i ≠ rowMatch i) :
    decode w = .reserved w := by
  obtain ⟨i, -, rfl⟩ | ⟨hr, -⟩ := decode_cases w
  · exact absurd (encode_and_rowMask i) (h i)
  · exact hr

/-! ### The checks of a word -/

/-- What `exec` does with a command whose checks refuse it. -/
theorem exec_of_refusal {i : Instr} {s : State} {r : Refusal} (h : commandRefusal i s = some r) :
    exec i s = .refused r := by
  cases i with
  | init => simp [exec, execInit, h]
  | put b => simp [exec, execPut, h]
  | get => simp [exec, execGet, h]
  | len => simp [exec, execLen, h]

/-- A command whose checks pass is not refused: the accesses to the cells are not. -/
theorem exec_not_refused {i : Instr} {s : State} (h : commandRefusal i s = none) (r : Refusal) :
    exec i s ≠ .refused r := by
  cases i with
  | init => simp [exec, execInit, h]
  | put b =>
    simp only [exec, execPut, h]
    split_ifs
    · simp
    · simp [andThen_eq_refused, writeCell_not_refused]
  | get =>
    simp only [exec, execGet, h]
    split_ifs
    · simp
    · simp [andThen_eq_refused, readCell_not_refused]
  | len => simp [exec, execLen, h]

/-- The first check of a command: its port (30_encoding.md R67). -/
theorem commandRefusal_wrongPort {i : Instr} {s : State} (hp : portAccepts s.port i = false) :
    commandRefusal i s = some .wrongPort := by
  simp [commandRefusal, hp]

/-- The second check: INIT has run, or this is one (70_reset_and_hazards.md R151). -/
theorem commandRefusal_notInitialised {i : Instr} {s : State} (hp : portAccepts s.port i = true)
    (hi : i ≠ .init) (hs : s.init = false) : commandRefusal i s = some .notInitialised := by
  simp [commandRefusal, hp, hi, hs]

/-- The third check: no data command stands beside an INIT (30_encoding.md R68). -/
theorem commandRefusal_initConcurrent {s : State} (hp : portAccepts s.port .init = true)
    (hb : s.dataBusy = true) : commandRefusal .init s = some .initConcurrent := by
  simp [commandRefusal, hp, hb]

/-- A reserved word is refused on every port (30_encoding.md R66). -/
theorem issue_reserved {w v : Word} (h : decode w = .reserved v) (p : Port) (s : State) :
    issue p w s = .refused .reservedEncoding := by
  simp [issue, h]

/-- Any other word issued executes its command on its port (30_encoding.md R60). -/
theorem issue_command {w : Word} {i : Instr} (h : decode w = .command i) (p : Port) (s : State) :
    issue p w s = exec i (s.withPort p) := by
  simp [issue, h]

/-! ### A step that is presented one word -/

/-- Nothing is left to do after the last port. -/
theorem andThen_next_right (o : Result) : andThen o .next = o := by cases o <;> rfl

/-- With one word presented on one port the other two have nothing to serve, so the word's place in
the order does not matter. -/
theorem servePorts_wordTick (p : Port) (w : Word) (s : State) :
    servePorts (wordTick p w) (portOrder (wordTick p w)) s = issue p w s := by
  cases p with
  | prod =>
    simp [portOrder, wordTick, Tick.quiet, holdsInit, Order.ports, servePorts, servePort,
      producerMove, andThen_next_right]
  | cons =>
    simp [portOrder, wordTick, Tick.quiet, holdsInit, Order.ports, servePorts, servePort,
      consumerMove, andThen_next_right]
  | ctrl =>
    unfold portOrder
    split_ifs
    · simp [wordTick, Tick.quiet, Order.ports, servePorts, servePort, andThen_next_right]
    · simp [wordTick, Tick.quiet, Order.ports, servePorts, servePort, andThen_next_right]

/-- A step that is presented one word issues it on its port. -/
theorem step_wordTick {s : State} {p : Port} {w : Word} {rest : List Tick}
    (hwf : s.cfg.wellFormed = true) (hinbox : s.inbox = wordTick p w :: rest) :
    step s = andThen (issue p w (beginTick (wordTick p w) { s with inbox := rest }))
      fun t => .next (endTick t) := by
  have hnext : nextTick s = wordTick p w := by simp [nextTick, hinbox]
  have htake : takeTick s = { s with inbox := rest } := by simp [takeTick, hinbox]
  simp only [step, configRefusal_eq_none.2 hwf, runTick, hnext, htake, servePorts_wordTick]

/-- The start of a step that is presented one command: PROD and CONS are the ports of data
commands. -/
theorem beginTick_wordTick {w : Word} {i : Instr} (h : decode w = .command i) (p : Port) (s : State) :
    beginTick (wordTick p w) s =
      { s with takeRes := none, stuck := false,
               resp := { prod := none, cons := none, ctrl := none },
               dataBusy := decide (p ≠ .ctrl), draws := s.draws + 1 } := by
  cases p <;> simp [beginTick, wordTick, Tick.quiet, prodWord, consWord, holdsCommand, h]

/-- The port for a command's word is the one of its home (30_encoding.md R60). -/
theorem portFor_encode (i : Instr) : portFor (encode i) = homePort i := by
  rw [portFor, decode_encode]
  cases i <;> rfl

/-- A command's word fits the table's sixteen bits (log entry 22). -/
theorem wordOfTable_encode (i : Instr) : wordOfTable 16 (encode i).toNat = some (encode i) := by
  have hlt := (encode i).isLt
  have hmod : (encode i).toNat % 2 ^ 16 = (encode i).toNat := Nat.mod_eq_of_lt (by omega)
  rw [wordOfTable, hmod, if_pos hlt, BitVec.ofNat_toNat, BitVec.setWidth_eq]

/-! ### The response word -/

/-- A count up to `C` fits the value bits (00_scope.md R7). -/
theorem count_lt_two_pow_valueWidth {c : Config} {n : Nat} (h : n ≤ c.cap) :
    n < 2 ^ valueWidth c :=
  calc n < c.cap + 1 := Nat.lt_succ_of_le h
    _ ≤ 2 ^ countWidth c := le_two_pow_clog2 (c.cap + 1)
    _ ≤ 2 ^ valueWidth c := Nat.pow_le_pow_right (by decide) (le_max_right _ _)

/-! ### The assembler's form -/

/-- A hex digit written is read back (30_encoding.md R70). -/
theorem hexDigit_hexChar {n : Nat} (h : n < 16) : hexDigit (hexChar n) = some n := by
  have hall : ∀ k : Fin 16, hexDigit (hexChar k) = some k.val := by decide
  exact hall ⟨n, h⟩

/-- The two hex digits of a byte are read back as that byte. -/
theorem readByte_hex (b : Byte) :
    readByte ['0', 'x', hexChar (b.toNat / 16), hexChar (b.toNat % 16)] = some (b, []) := by
  have hhigh : b.toNat / 16 < 16 := by omega
  have hlow : b.toNat % 16 < 16 := Nat.mod_lt _ (by decide)
  have hbyte : BitVec.ofNat 8 (16 * (b.toNat / 16) + b.toNat % 16) = b := by
    rw [Nat.div_add_mod, BitVec.ofNat_toNat, BitVec.setWidth_eq]
  simp only [readByte, hexDigit_hexChar hhigh, hexDigit_hexChar hlow, hbyte]

/-- A PUT is read by its name, and its operand as a byte (30_encoding.md R70). -/
theorem readCommand_put (c : Char) (cs : List Char) (hc : c ≠ ' ' ∧ c ≠ '\t') :
    readCommand ('P' :: 'U' :: 'T' :: ' ' :: c :: cs) =
      (readByte (c :: cs)).map fun x => (.plain (.put x.1), x.2) := by
  simp [readCommand, readPlain, readPut, readPuts, readGetn, readWord, endOfWord, skipSpaces, hc]

/-- A command's text is read as that command, to its end. -/
theorem readCommand_commandText (i : Instr) : readCommand (commandText i) = some (.plain i, []) := by
  cases i with
  | put b =>
    rw [commandText, readCommand_put _ _ (by decide), readByte_hex]
    rfl
  | init => rfl
  | get => rfl
  | len => rfl

/-- No command's text begins with a space. -/
theorem skipSpaces_commandText (i : Instr) : skipSpaces (' ' :: commandText i) = commandText i := by
  cases i <;> rfl

/-- A port's name is read as that port, whatever stands behind it. -/
theorem readPort_text (p : Port) (cs : List Char) : readPort (Port.text p ++ cs) = some (p, cs) := by
  cases p <;> rfl

/-- A line begins with its port's name, not with a space or a comment. -/
theorem skipSpaces_text (p : Port) (cs : List Char) :
    skipSpaces (Port.text p ++ cs) = Port.text p ++ cs := by
  cases p <;> rfl

/-- The line of a command is read as that command on its port (30_encoding.md R70). -/
theorem readLine_lineText (p : Port) (i : Instr) : readLine (lineText p i) = some (p, .plain i) := by
  have hline : lineText p i = Port.text p ++ ':' :: ' ' :: commandText i := by simp [lineText]
  have hcolon (cs : List Char) : readWord [':'] (skipSpaces (':' :: cs)) = some cs := rfl
  have hend : endOfLine [] = true := rfl
  simp only [readLine, hline, skipSpaces_text, readPort_text, hcolon, skipSpaces_commandText,
    readCommand_commandText, hend, if_true]

/-- A command's line is not blank. -/
theorem endOfLine_lineText (p : Port) (i : Instr) : endOfLine (lineText p i) = false := by
  cases p <;> rfl

/-! ### The obligations -/

/-- Settles O1: every word is a command's or reserved, and the words of commands decode to them. -/
theorem decodeInvertsEncode : Obligations.DecodeInvertsEncode := by
  unfold Obligations.DecodeInvertsEncode
  exact ⟨fun i _ => decode_encode i, fun w i => decode_eq_command_iff.1⟩

/-- Settles O2: the reserved words by their fields, counted operation by operation; `issue` refuses
one, and a step that presents one alone issues it. -/
theorem reservedWordsAreRefused : Obligations.ReservedWordsAreRefused := by
  unfold Obligations.ReservedWordsAreRefused
  have hops : ∀ op : BitVec 2, (op = 0b00#2 ∨ op = 0b10#2 ∨ op = 0b11#2) ↔ op ≠ 0b01#2 := by decide
  refine ⟨fun w => ?_, fun w v => eq_of_decode_eq_reserved, length_reserved,
    fun w v p s h => issue_reserved h p s, fun s p w v rest hwf h hinbox => ?_⟩
  · rw [hops, ← decode_eq_reserved_iff]
    exact ⟨fun ⟨v, hv⟩ => eq_of_decode_eq_reserved hv ▸ hv, fun h => ⟨w, h⟩⟩
  · rw [step_wordTick hwf hinbox, issue_reserved h, andThen_refused]

/-- Settles O15: the decoder's check stands before the command's three, each of which is reached
where the ones before it pass. -/
theorem checksRunInOrder : Obligations.ChecksRunInOrder := by
  unfold Obligations.ChecksRunInOrder
  intro p w s
  refine ⟨fun v h => issue_reserved h p s, fun i h => ?_⟩
  rw [issue_command h]
  refine ⟨fun hp => exec_of_refusal (commandRefusal_wrongPort hp),
    fun hp hi hs => exec_of_refusal (commandRefusal_notInitialised hp hi hs),
    fun hp hi hb => ?_, fun hp hi hb => exec_not_refused (commandRefusal_eq_none.2 ⟨hp, ?_, hb⟩)⟩
  · subst hi
    exact exec_of_refusal (commandRefusal_initConcurrent hp hb)
  · exact hi.resolve_left

/-- Settles O25: the bits of `BitVec.cons`, and the widths of R7 leave room for a byte and for a
count. -/
theorem responseWordLayout : Obligations.ResponseWordLayout := by
  unfold Obligations.ResponseWordLayout
  refine ⟨fun c r => ⟨?_, BitVec.setWidth_cons⟩,
    fun c => ⟨rfl, fun ok => rfl⟩, fun c b => ⟨?_, rfl⟩, fun d => rfl, fun c n hn => ⟨?_, rfl⟩⟩
  · rw [responseWord, BitVec.getLsbD_cons, if_pos rfl]
  · exact BitVec.toNat_setWidth_of_le (le_max_left _ _)
  · exact (BitVec.toNat_ofNat _ _).trans
      (Nat.mod_eq_of_lt (count_lt_two_pow_valueWidth hn))

/-- Settles O3: INIT, GET and LEN fix every bit of their row, PUT its `op` field. -/
theorem rowsSelectCommands : Obligations.RowsSelectCommands := by
  unfold Obligations.RowsSelectCommands
  intro w
  refine ⟨decode_of_fixedRow (i := .init) rfl rfl, decode_of_putRow,
    decode_of_fixedRow (i := .get) rfl rfl, decode_of_fixedRow (i := .len) rfl rfl,
    fun hinit hput hget hlen => decode_eq_reserved_of_noRow fun i => ?_⟩
  cases i with
  | init => exact hinit
  | put b => exact hput
  | get => exact hget
  | len => exact hlen

/-- Settles O4: six of the words are commands' words, two have data beside an operation that takes
none. -/
theorem knownWordsDecode : Obligations.KnownWordsDecode := by
  unfold Obligations.KnownWordsDecode
  exact ⟨decode_encode .init, decode_encode (.put 0x00#8), decode_encode (.put 0x2A#8),
    decode_encode (.put 0xFF#8), decode_encode .get, decode_encode .len,
    decode_eq_reserved_iff.2 (by decide), decode_eq_reserved_iff.2 (by decide)⟩

/-- Settles O13: the port table, and the port is the first check of a command. -/
theorem wrongPortIsRefused : Obligations.WrongPortIsRefused := by
  unfold Obligations.WrongPortIsRefused
  refine ⟨fun b p => portAccepts_put, fun p => portAccepts_get, fun p => portAccepts_init,
    fun p => ?_, fun i s hp => exec_of_refusal (commandRefusal_wrongPort hp)⟩
  cases p <;> rfl

/-- Settles O16: the step issues the word, which is its command executed on its port. -/
theorem stepRunsDecodedCommand : Obligations.StepRunsDecodedCommand := by
  unfold Obligations.StepRunsDecodedCommand
  intro s p w i rest hwf hinbox h
  rw [step_wordTick hwf hinbox, issue_command h, beginTick_wordTick h]
  rfl

/-- Settles O17: the word placed stands alone in the next tick, on its command's home port. -/
theorem placedCommandRunsNext : Obligations.PlacedCommandRunsNext := by
  unfold Obligations.PlacedCommandRunsNext
  intro s i hwf
  refine ⟨by simp [decodeTableWord, wordOfTable_encode, decode_encode], ?_⟩
  have hplaced : s.withFetchWord 16 (encode i).toNat =
      presentTick (wordTick (homePort i) (encode i)) s := by
    simp [State.withFetchWord, wordOfTable_encode, portFor_encode]
  rw [hplaced]
  exact stepRunsDecodedCommand (presentTick _ s) _ _ i s.inbox hwf rfl (decode_encode i)

/-- Settles O55: the expansions by definition, the example of R71 by evaluation. -/
theorem pseudoInstructionsExpand : Obligations.PseudoInstructionsExpand := by
  unfold Obligations.PseudoInstructionsExpand
  exact ⟨fun text => rfl, fun n => rfl, rfl, by decide⟩

/-- Settles O56: the line is read part by part, a PUT's byte by its two hex digits. -/
theorem assemblerReadsItsOwnForm : Obligations.AssemblerReadsItsOwnForm := by
  unfold Obligations.AssemblerReadsItsOwnForm
  intro p i
  simp [assembleLine, endOfLine_lineText, readLine_lineText, expandCommand]

end Sys2Proof.Machine

/-! PROOFS. The family of 40_init.md: INIT's effect on the ring and the status it leaves (R80), its
idempotency, and its refusals, beside a data command also as a step (30_encoding.md R68,
70_reset_and_hazards.md R155). -/

namespace Sys2Proof.Machine

open Sys2Proof

section

variable {s t : State}

/-! ### The status INIT leaves -/

/-- Nothing is held once INIT has run (40_init.md R80). -/
theorem occ_clearRing (s : State) : s.clearRing.occ = 0 := occ_eq_zero_of_eq rfl rfl

/-- The cleared ring is not full: it has a cell, and its mirrors agree (10_state.md R31). -/
theorem isFull_clearRing (h : s.cfg.wellFormed = true) : s.clearRing.isFull = false := by
  obtain ⟨hr, -⟩ := ringOk_clearRing h rfl
  exact Bool.eq_false_iff.2 fun hfull => ((isFull_iff hr).1 hfull).2 rfl

/-! ### INIT's next state -/

/-- INIT answers where its checks pass: on CTRL with no data command beside it (40_init.md R80). -/
theorem exec_init_eq_next :
    exec .init s = .next t ↔
      s.port = .ctrl ∧ s.dataBusy = false ∧ t = s.clearRing.respond .unit := by
  have hchecks : commandRefusal .init s = none ↔ s.port = .ctrl ∧ s.dataBusy = false := by
    simp [commandRefusal_eq_none, portAccepts_init]
  rw [exec, execInit_eq_next, hchecks, and_assoc]

/-- Putting the same response on a port again changes nothing. -/
theorem put_put_self (r : Responses) (p : Port) (v : Response) : (r.put p v).put p v = r.put p v := by
  cases p <;> rfl

/-- A second INIT finds everything it writes already there (40_init.md R80). -/
theorem clearRing_respond_idem (s : State) :
    (s.clearRing.respond .unit).clearRing.respond .unit = s.clearRing.respond .unit := by
  simp only [State.respond, State.clearRing, put_put_self]

/-! ### INIT beside a data command -/

/-- A step runs the first tick of the inbox (log entry 4). -/
theorem step_of_inbox {k : Tick} {rest : List Tick} (hwf : s.cfg.wellFormed = true)
    (hinbox : s.inbox = k :: rest) : step s = runTick k { s with inbox := rest } := by
  have hnext : nextTick s = k := by simp [nextTick, hinbox]
  have htake : takeTick s = { s with inbox := rest } := by simp [takeTick, hinbox]
  simp only [step, configRefusal_eq_none.2 hwf, hnext, htake]

/-- A port that holds a command's word holds a command. -/
theorem holdsCommand_of_decode {w : Word} {i : Instr} (h : decode w = .command i) :
    holdsCommand (some w) = true := by
  simp [holdsCommand, h]

/-- An INIT on CTRL is served before the other ports (log entry 6). -/
theorem portOrder_of_init {k : Tick} (hk : k.ctrl = some (encode .init)) :
    portOrder k = .ctrl :: k.order.ports.filter fun p => decide (p ≠ .ctrl) :=
  if_pos (by simp [hk, holdsInit, decode_encode])

/-- A tick with an INIT beside a data command is refused in every order: CTRL is served first, and
its command's third check finds the mark of the data command (30_encoding.md R68). -/
theorem runTick_init_beside_data {k : Tick} (hk : k.ctrl = some (encode .init))
    (hbusy : (beginTick k s).dataBusy = true) : runTick k s = .refused .initConcurrent := by
  have hserve : servePort k .ctrl (beginTick k s) = .refused .initConcurrent := by
    simp only [servePort, hk, issue_encode]
    exact exec_of_refusal (commandRefusal_initConcurrent rfl hbusy)
  rw [runTick, portOrder_of_init hk, servePorts, hserve, andThen_refused, andThen_refused]

end

/-! ### The obligations -/

/-- Settles O5: the whole next state is the cleared ring with its response, the refusals are those
of the checks of R69 in turn, and a step serves the INIT first. -/
theorem initResetsRing : Obligations.InitResetsRing := by
  unfold Obligations.InitResetsRing
  refine ⟨rfl, fun s hp hb => ?_, fun s hp => ?_, fun s hp hb => ?_, fun s p d hd => ?_,
    fun s t hwf h => ?_, fun s k rest w i hwf hinbox hk hw hstands => ?_⟩
  · rw [exec_init_eq_next.2 ⟨hp, hb, rfl⟩, State.respond, clearRing_port, hp]
    rfl
  · refine exec_of_refusal (commandRefusal_wrongPort ?_)
    rcases hp with hp | hp
    all_goals rw [hp]; rfl
  · exact exec_of_refusal (commandRefusal_initConcurrent (portAccepts_init.2 hp) hb)
  · obtain ⟨hop, hdata⟩ := opField_append 0b00#2 d
    exact issue_reserved (decode_eq_reserved_iff.2 ⟨by rw [hop]; decide, by rwa [hdata]⟩) p s
  · obtain ⟨hp, hb, rfl⟩ := exec_init_eq_next.1 h
    exact ⟨occ_clearRing s, decide_eq_true (occ_clearRing s), isFull_clearRing hwf, memory_read_nil,
      exec_init_eq_next.2 ⟨hp, hb, (clearRing_respond_idem s).symm⟩⟩
  · rw [step_of_inbox hwf hinbox]
    refine runTick_init_beside_data hk (Bool.or_eq_true_iff.2 ?_)
    have hcommand := holdsCommand_of_decode hw
    rcases hstands with hprod | hcons
    · exact .inl (hprod ▸ hcommand)
    · exact .inr (hcons ▸ hcommand)

end Sys2Proof.Machine

/-! PROOFS. The family of 41_transfer.md: the advance (R85), PUT and GET with their whole next states,
the status they leave and their refusals (R86, R87), and the order of the bytes through a full buffer
(R88). -/

namespace Sys2Proof.Machine

open Sys2Proof

section

variable {s t : State}

/-! ### The advance of a pair -/

/-- The index goes back to 0 exactly at the wrap (41_transfer.md R85). -/
theorem advance_index {cap i : Nat} {m : Bool} :
    (advance cap i m).1 = if i + 1 = cap then 0 else i + 1 := by
  unfold advance
  split_ifs <;> rfl

/-- The write pair's advance, its two registers written out. -/
theorem advanceWrite_eq (s : State) :
    s.advanceWrite = { s with
      wIdx := if s.wIdx + 1 = s.cfg.cap then 0 else s.wIdx + 1
      wMir := if s.wIdx + 1 = s.cfg.cap then !s.wMir else s.wMir } := by
  rw [State.advanceWrite, advance_index, advance_mirror]

/-- The read pair's advance, its two registers written out. -/
theorem advanceRead_eq (s : State) :
    s.advanceRead = { s with
      rIdx := if s.rIdx + 1 = s.cfg.cap then 0 else s.rIdx + 1
      rMir := if s.rIdx + 1 = s.cfg.cap then !s.rMir else s.rMir } := by
  rw [State.advanceRead, advance_index, advance_mirror]

/-! ### The status a transfer leaves -/

/-- A stored byte leaves the buffer full exactly where one cell was free (41_transfer.md R86). -/
theorem isFull_advanceWrite (hr : s.indicesInRange) (hm : s.mirrorsMatch) (hf : s.isFull = false) :
    s.advanceWrite.isFull = true ↔ s.occ = s.cfg.cap - 1 := by
  obtain ⟨hrd, -⟩ := id hr
  have hocc := occ_advanceWrite hr hm hf
  rw [State.isFull, decide_eq_true_iff, hocc, advanceWrite_cfg]
  omega

/-- A stored byte leaves the buffer not empty (41_transfer.md R86). -/
theorem isEmpty_advanceWrite (hr : s.indicesInRange) (hm : s.mirrorsMatch) (hf : s.isFull = false) :
    s.advanceWrite.isEmpty = false := by
  have hocc := occ_advanceWrite hr hm hf
  exact decide_eq_false (by omega)

/-- A byte removed leaves the buffer empty exactly where it was the only one (41_transfer.md R87). -/
theorem isEmpty_advanceRead (hr : s.indicesInRange) (hm : s.mirrorsMatch) (he : s.isEmpty = false) :
    s.advanceRead.isEmpty = true ↔ s.occ = 1 := by
  have hocc := occ_advanceRead hr hm he
  rw [State.isEmpty, decide_eq_true_iff]
  omega

/-- A byte removed leaves the buffer not full (41_transfer.md R87). -/
theorem isFull_advanceRead (hr : s.indicesInRange) (hm : s.mirrorsMatch) (he : s.isEmpty = false) :
    s.advanceRead.isFull = false := by
  have hocc := occ_advanceRead hr hm he
  have hle : s.occ ≤ s.cfg.cap := occ_le_cap hr
  exact decide_eq_false (by rw [advanceRead_cfg]; omega)

/-! ### The answers of PUT and GET -/

/-- After INIT the checks of PUT, GET and LEN pass on a port that accepts them. -/
theorem commandRefusal_of_init {i : Instr} (hp : portAccepts s.port i = true) (hi : s.init = true)
    (hne : i ≠ .init) : commandRefusal i s = none :=
  commandRefusal_eq_none.2 ⟨hp, fun _ => hi, fun h => absurd h hne⟩

/-- A response on PROD. -/
theorem respond_prod (hp : s.port = .prod) (r : Response) :
    s.respond r = { s with resp := { s.resp with prod := some r } } := by
  rw [State.respond, hp]
  rfl

/-- A response on CONS. -/
theorem respond_cons (hp : s.port = .cons) (r : Response) :
    s.respond r = { s with resp := { s.resp with cons := some r } } := by
  rw [State.respond, hp]
  rfl

/-- The answer without data on CONS. -/
theorem respondNoData_cons (hp : s.port = .cons) :
    s.respondNoData = { s with
      resp := { s.resp with cons := some (.noData s.draws) }
      draws := s.draws + 1 } := by
  rw [State.respondNoData, hp]
  rfl

/-- GET whose oldest cell holds no byte faults (10_state.md R37). -/
theorem exec_get_unwritten (hcheck : commandRefusal .get s = none) (he : s.isEmpty = false)
    (hr : s.rIdx < s.cfg.cap) (hread : Memory.read s.stor s.rIdx = none) :
    exec .get s = .fault .unwrittenCell := by
  have hcell : readCell s s.rIdx = .fault .unwrittenCell := by simp [readCell, hr, hread]
  simp [exec, execGet, hcheck, he, hcell]

/-- In a live state no command faults: its checks refuse it or it answers (60_exceptions.md R110). -/
theorem State.Live.exec_not_fault {i : Instr} (hs : s.Live) (r : Fault) : exec i s ≠ .fault r := by
  cases hcheck : commandRefusal i s with
  | some q => simp [exec_of_refusal hcheck]
  | none =>
    obtain ⟨hp, -, hbusy⟩ := commandRefusal_eq_none.1 hcheck
    obtain ⟨t, ht⟩ := hs.exec_completes hp hbusy
    simp [ht]

/-! ### Runs without INIT as a queue -/

/-- From a live state a run of commands without INIT gives the answers of the queue of 20_memory.md
R51; only an INIT could be refused, beside a data command. -/
theorem State.Live.runCommands_queue {is : List Instr} (hs : s.Live) (hinit : .init ∉ is) :
    ∃ t, runCommands is s = .next (t, (queueRun s.cfg.cap is s.contents).2.map some) := by
  induction is generalizing s with
  | nil => exact ⟨s, rfl⟩
  | cons i is ih =>
    obtain ⟨hi, his⟩ := List.ne_and_not_mem_of_not_mem_cons hinit
    have hport : (s.withPort (homePort i)).Live := hs.withPort _
    obtain ⟨u, hu⟩ := hport.exec_completes (portAccepts_homePort i) fun h => absurd h.symm hi
    have hcap : u.cfg = s.cfg := (exec_keepsConsumer hu).cfg
    obtain ⟨r, hresp, hanswer, hcontents⟩ := hport.exec_queue hu
    obtain ⟨t, hrun⟩ := ih (exec_live hport hu) his
    rw [hcap, hcontents] at hrun
    exact ⟨t, by simp [runCommands, hu, hrun, queueRun, hresp, hanswer]⟩

/-- A run on the queue in two parts: the second goes on from what the first leaves. -/
theorem queueRun_append (cap : Nat) (is js : List Instr) (q : List Byte) :
    queueRun cap (is ++ js) q =
      ((queueRun cap js (queueRun cap is q).1).1,
        (queueRun cap is q).2 ++ (queueRun cap js (queueRun cap is q).1).2) := by
  induction is generalizing q with
  | nil => rfl
  | cons i is ih => simp only [List.cons_append, queueRun, ih]

/-- PUTs on the queue fill it up to its capacity, and from then on they are dropped (41_transfer.md
R88). -/
theorem queueRun_puts {cap : Nat} (bs : List Byte) {q : List Byte} (hq : q.length ≤ cap) :
    queueRun cap (bs.map Instr.put) q =
      (q ++ bs.take (cap - q.length),
        (List.range bs.length).map fun k => .stored (decide (q.length + k < cap))) := by
  induction bs generalizing q with
  | nil => simp [queueRun]
  | cons b bs ih =>
    rw [List.map_cons, queueRun, List.length_cons, List.range_succ_eq_map, List.map_cons, List.map_map]
    by_cases hfull : q.length = cap
    · rw [queueStep_put_of_full b hfull, ih hq]
      simp [hfull, Function.comp_def]
    · have hroom : q.length < cap := lt_of_le_of_ne hq hfull
      have hlen : (q ++ [b]).length = q.length + 1 := List.length_append
      have hleft : cap - q.length = cap - (q.length + 1) + 1 := by omega
      rw [queueStep_put_of_room b hfull, ih (hlen ▸ hroom), hlen, hleft, List.take_succ_cons]
      simp [hroom, Function.comp_def, Nat.add_assoc, Nat.add_comm 1]

/-- One GET more than there are bytes on the queue returns them all in order, then no data
(41_transfer.md R88). -/
theorem queueRun_gets (cap : Nat) (q : List Byte) :
    queueRun cap (List.replicate (q.length + 1) .get) q =
      ([], (q.map fun b => .byte (some b)) ++ [.byte none]) := by
  induction q with
  | nil => rfl
  | cons b q ih =>
    rw [List.length_cons, List.replicate_succ, queueRun, queueStep, ih]
    rfl

/-- The run of laws 3 and 4 of 41_transfer.md R88 on the empty queue. -/
theorem queueRun_overflow (cap : Nat) (bs : List Byte) :
    (queueRun cap (bs.map Instr.put ++ List.replicate (min bs.length cap + 1) .get) []).2 =
      (List.range bs.length).map (fun k => .stored (decide (k < cap))) ++
        ((bs.take cap).map (fun b => .byte (some b)) ++ [.byte none]) := by
  have hputs := queueRun_puts bs (q := []) cap.zero_le
  have hgets := queueRun_gets cap (bs.take cap)
  simp only [List.length_nil, Nat.sub_zero, List.nil_append, Nat.zero_add] at hputs
  rw [List.length_take, Nat.min_comm] at hgets
  rw [queueRun_append, hputs, hgets]

end

/-! ### The obligations -/

/-- Settles O38: the block answers as the queue does, for any bytes, and the run holds no INIT. -/
theorem overflowKeepsTheFirst : Obligations.OverflowKeepsTheFirst := by
  unfold Obligations.OverflowKeepsTheFirst
  intro bs s hs he
  obtain ⟨t, hrun⟩ := hs.runCommands_queue
    (is := bs.map Instr.put ++ List.replicate (min bs.length s.cfg.cap + 1) .get) (by simp)
  refine ⟨t, hrun.trans ?_⟩
  rw [contents_of_isEmpty he, queueRun_overflow]
  simp [Function.comp_def]

/-- Settles O6: the two ways of a PUT whose checks pass, and the refusals in the order of R69. The
status after it is that of the advanced write pair. -/
theorem putStoresOrDrops : Obligations.PutStoresOrDrops := by
  unfold Obligations.PutStoresOrDrops
  refine ⟨fun b => ?_, fun b s hp hi hfull => ?_, fun b s hp hi hroom hw => ?_,
    fun b s t hs hroom h => ?_, fun b s hp => ?_, fun b s hp hi => ?_⟩
  · exact BitVec.append_def _ _
  · have hcheck := commandRefusal_of_init (portAccepts_put.2 hp) hi (i := .put b) nofun
    rw [← respond_prod hp]
    exact execPut_eq_next.2 ⟨hcheck, .inl ⟨decide_eq_true hfull, rfl⟩⟩
  · have hcheck := commandRefusal_of_init (portAccepts_put.2 hp) hi (i := .put b) nofun
    refine execPut_eq_next.2 ⟨hcheck, .inr ⟨decide_eq_false hroom, hw, ?_⟩⟩
    rw [respond_prod, advanceWrite_eq]
    exact hp
  · have hf : s.isFull = false := decide_eq_false hroom
    obtain ⟨hr, hm, -⟩ := hs.ring
    obtain ⟨-, ⟨hfull, -⟩ | ⟨-, -, rfl⟩⟩ := execPut_eq_next.1 h
    · exact absurd (of_decide_eq_true hfull) hroom
    · refine ⟨occ_advanceWrite hr hm hf, isEmpty_advanceWrite hr hm hf,
        isFull_advanceWrite hr hm hf, fun hfull => ?_⟩
      obtain ⟨hidx, hmir⟩ := (isFull_iff (indicesInRange_advanceWrite hr)).1 hfull
      exact ⟨hidx.symm, hmir.symm⟩
  · refine exec_of_refusal (commandRefusal_wrongPort ?_)
    rcases hp with hp | hp
    all_goals rw [hp]; rfl
  · exact exec_of_refusal (commandRefusal_notInitialised (portAccepts_put.2 hp) nofun hi)

/-- Settles O7: the ways of a GET whose checks pass, the refusals in the order of R69, and the
reserved words of its block. The status after it is that of the advanced read pair. -/
theorem getRemovesOldest : Obligations.GetRemovesOldest := by
  unfold Obligations.GetRemovesOldest
  refine ⟨rfl, fun s hp hi hempty => ?_, fun s b hp hi hdata hr hb => ?_,
    fun s hp hi hdata hr hread => ?_, fun s r hs => hs.exec_not_fault r,
    fun s t hs hdata h => ?_, fun s hp => ?_, fun s hp hi => ?_, fun s p d hd => ?_⟩
  · have hcheck := commandRefusal_of_init (portAccepts_get.2 hp) hi nofun
    rw [← respondNoData_cons hp]
    exact execGet_eq_next.2 ⟨hcheck, .inl ⟨decide_eq_true hempty, rfl⟩⟩
  · have hcheck := commandRefusal_of_init (portAccepts_get.2 hp) hi nofun
    refine execGet_eq_next.2 ⟨hcheck, .inr ⟨decide_eq_false hdata, hr, b, hb, ?_⟩⟩
    rw [respond_cons, advanceRead_eq]
    exact hp
  · have hcheck := commandRefusal_of_init (portAccepts_get.2 hp) hi nofun
    exact exec_get_unwritten hcheck (decide_eq_false hdata) hr hread
  · have he : s.isEmpty = false := decide_eq_false hdata
    obtain ⟨hr, hm, -⟩ := hs.ring
    obtain ⟨-, ⟨hempty, -⟩ | ⟨-, -, b, -, rfl⟩⟩ := execGet_eq_next.1 h
    · exact absurd (of_decide_eq_true hempty) hdata
    · exact ⟨Nat.eq_sub_of_add_eq (occ_advanceRead hr hm he), isFull_advanceRead hr hm he,
        isEmpty_advanceRead hr hm he, (isEmpty_iff (indicesInRange_advanceRead hr)).1⟩
  · refine exec_of_refusal (commandRefusal_wrongPort ?_)
    rcases hp with hp | hp
    all_goals rw [hp]; rfl
  · exact exec_of_refusal (commandRefusal_notInitialised (portAccepts_get.2 hp) nofun hi)
  · obtain ⟨hop, hdata⟩ := opField_append 0b10#2 d
    exact issue_reserved (decode_eq_reserved_iff.2 ⟨by rw [hop]; decide, by rwa [hdata]⟩) p s

/-- Settles O27: the two branches of the advance; with one cell the only index in range is the last
one. -/
theorem advanceWrapsAtCapacity : Obligations.AdvanceWrapsAtCapacity := by
  unfold Obligations.AdvanceWrapsAtCapacity
  intro cap i m hi
  refine ⟨rfl, advance_lt hi, fun hcap => ?_⟩
  have hwrap : i + 1 = cap := by omega
  exact if_pos hwrap

end Sys2Proof.Machine

/-! PROOFS. The family of 42_query.md: LEN with its answer on every port and its refusals (R100), and
the EMPTY and FULL outputs (R101, R102). -/

namespace Sys2Proof.Machine

open Sys2Proof

section

variable {s : State}

/-! ### The answer of LEN -/

/-- Every port accepts LEN (30_encoding.md R60). -/
theorem portAccepts_len (p : Port) : portAccepts p .len = true := by
  cases p <;> rfl

/-- A response on CTRL. -/
theorem respond_ctrl (hp : s.port = .ctrl) (r : Response) :
    s.respond r = { s with resp := { s.resp with ctrl := some r } } := by
  rw [State.respond, hp]
  rfl

/-- After INIT, LEN answers the count on the port being served, whichever it is (42_query.md R100). -/
theorem exec_len_of_init (hi : s.init = true) : exec .len s = .next (s.respond (.count s.occ)) :=
  execLen_eq_next.2 ⟨commandRefusal_of_init (portAccepts_len s.port) hi nofun, rfl⟩

/-! ### The status outputs -/

/-- Once `init` holds the EMPTY output is the derived status (42_query.md R101). -/
theorem emptyOut_of_init (hi : s.init = true) : s.emptyOut = s.isEmpty := if_pos hi

/-- Once `init` holds the FULL output is the derived status (42_query.md R102). -/
theorem fullOut_of_init (hi : s.init = true) : s.fullOut = s.isFull := if_pos hi

/-- Empty needs equal mirrors and full differing ones (10_state.md R30, R31). -/
theorem not_isEmpty_and_isFull (hr : s.indicesInRange) : ¬ (s.isEmpty = true ∧ s.isFull = true) := by
  rintro ⟨he, hf⟩
  obtain ⟨-, hsame⟩ := (isEmpty_iff hr).1 he
  obtain ⟨-, hdiffer⟩ := (isFull_iff hr).1 hf
  exact hdiffer hsame

/-- In a live state the two outputs are never both 1 (42_query.md R102). -/
theorem State.Live.not_emptyOut_and_fullOut (hs : s.Live) :
    ¬ (s.emptyOut = true ∧ s.fullOut = true) := by
  obtain ⟨-, hi⟩ := id hs
  obtain ⟨hr, -⟩ := hs.ring
  rw [emptyOut_of_init hi, fullOut_of_init hi]
  exact not_isEmpty_and_isFull hr

end

/-! ### The obligations -/

/-- Settles O23: after INIT the outputs are the derived status, and a step that ends with `init` ends
in a live state. -/
theorem statusOutputsFollowState : Obligations.StatusOutputsFollowState := by
  unfold Obligations.StatusOutputsFollowState
  refine ⟨fun s hi => ⟨emptyOut_of_init hi, fullOut_of_init hi⟩,
    fun s hs => hs.not_emptyOut_and_fullOut, fun s t hs h hi => ?_⟩
  have ht : t.Live := ⟨stepKeepsInvariant s t hs h, hi⟩
  exact ht.not_emptyOut_and_fullOut

/-- Settles O8: the answer goes to the port being served, no port refuses LEN, and the words of its
block with data are reserved. -/
theorem lenReportsCount : Obligations.LenReportsCount := by
  unfold Obligations.LenReportsCount
  refine ⟨rfl, fun s hi hp => ?_, fun s hi hp => ?_, fun s hi hp => ?_, fun c n => rfl,
    fun s hi => ?_, fun s p d hd => ?_⟩
  · rw [exec_len_of_init hi, respond_prod hp]
  · rw [exec_len_of_init hi, respond_cons hp]
  · rw [exec_len_of_init hi, respond_ctrl hp]
  · exact exec_of_refusal (commandRefusal_notInitialised (portAccepts_len s.port) nofun hi)
  · obtain ⟨hop, hdata⟩ := opField_append 0b11#2 d
    exact issue_reserved (decode_eq_reserved_iff.2 ⟨by rw [hop]; decide, by rwa [hdata]⟩) p s

end Sys2Proof.Machine

/-! PROOFS. The family of 60_exceptions.md: the one fault a step can end in (R112), the producer
routine, its drain and the interrupt that starts it (R116 to R122), the Signal and the consumer's
state machine (R123 to R127), wake-ups (R128), and the delivery of arrivals (R131). -/

namespace Sys2Proof.Machine

open Sys2Proof

section

variable {s t : State}

/-! ### What a move and a port can do -/

/-- A port has nothing to do, or what it does in a step is one move of its side, or one word. -/
theorem servePort_cases (k : Tick) (p : Port) (s : State) :
    servePort k p s = .next s ∨
    (∃ m, p = .prod ∧ k.prod = some m ∧ servePort k p s = producerMove m s) ∨
    (∃ m, p = .cons ∧ servePort k p s = consumerMove m s) ∨
    ∃ w, p = .ctrl ∧ servePort k p s = issue .ctrl w s := by
  cases p with
  | prod =>
    cases hm : k.prod with
    | none => exact .inl (by simp [servePort, hm])
    | some m => exact .inr (.inl ⟨m, rfl, rfl, by simp [servePort, hm]⟩)
  | cons =>
    cases hm : k.cons with
    | none => exact .inl (by simp [servePort, hm])
    | some m => exact .inr (.inr (.inl ⟨m, rfl, by simp [servePort, hm]⟩))
  | ctrl =>
    cases hm : k.ctrl with
    | none => exact .inl (by simp [servePort, hm])
    | some w => exact .inr (.inr (.inr ⟨w, rfl, by simp [servePort, hm]⟩))

/-- The producer's `release` outside its routine is one, or is skipped (log entry 15). -/
theorem producerRelease_cases (s : State) :
    producerRelease s = release s ∨ producerRelease s = .next s := by
  cases hp : s.producer with
  | idle => exact .inl (by simp [producerRelease, hp])
  | _ => exact .inr (by simp [producerRelease, hp])

/-- The consumer's `release` is one, or is skipped in a call (log entry 15). -/
theorem consumerRelease_cases (s : State) :
    consumerRelease s = release s ∨ consumerRelease s = .next s := by
  cases hb : s.consumer.busy with
  | false => exact .inl (by simp [consumerRelease, hb])
  | true => exact .inr (by simp [consumerRelease, hb])

/-- Everything a move of the consumer's side can do: a word issued, or, its turn noted, nothing, the
start of a call, the routine's step, a `release`, or the first attempt at a `take`. -/
theorem consumerMove_cases {m : ConsMove} (h : consumerMove m s = .next t) :
    (∃ w, issue .cons w s = .next t) ∨ t = s.noteStuck ∨
    (∃ x, t = { s.noteStuck with consumer := .waitForData x }) ∨
    (∃ e, consumerRun e s.noteStuck = .next t) ∨ release s.noteStuck = .next t ∨
    ∃ x r, t = s.noteStuck.afterTake r (afterBareTake x r) := by
  cases m with
  | word w => exact .inl ⟨w, h⟩
  | call x =>
    obtain rfl : consumerCall x s.noteStuck = t := by simpa [consumerMove] using h
    unfold consumerCall
    split_ifs
    · exact .inr (.inl rfl)
    · exact .inr (.inr (.inl ⟨x, rfl⟩))
  | run e => exact .inr (.inr (.inr (.inl ⟨e, h⟩)))
  | release =>
    rw [consumerMove] at h
    rcases consumerRelease_cases s.noteStuck with hr | hr
    · exact .inr (.inr (.inr (.inr (.inl (hr ▸ h)))))
    · rw [hr] at h
      cases h
      exact .inr (.inl rfl)
  | take x =>
    obtain rfl : consumerTake x s.noteStuck = t := by simpa [consumerMove] using h
    unfold consumerTake
    split_ifs
    · exact .inr (.inl rfl)
    · exact .inr (.inr (.inr (.inr (.inr ⟨x, _, rfl⟩))))

/-! ### A step with one move or none -/

/-- Ports with nothing to do are passed over. -/
theorem servePorts_skip {k : Tick} {ps : List Port} (qs : List Port)
    (hidle : ∀ q ∈ ps, ∀ a, servePort k q a = .next a) (s : State) :
    servePorts k (ps ++ qs) s = servePorts k qs s := by
  induction ps with
  | nil => rfl
  | cons p ps ih =>
    rw [List.cons_append, servePorts, hidle p List.mem_cons_self, andThen_next]
    exact ih fun q hq => hidle q (List.mem_cons_of_mem p hq)

/-- Where only one port has something to do, serving the ports is serving that one, in every order. -/
theorem servePorts_lone {k : Tick} (p : Port) (hidle : ∀ q ≠ p, ∀ a, servePort k q a = .next a)
    (s : State) : servePorts k (portOrder k) s = servePort k p s := by
  obtain ⟨ps, qs, hsplit, hps, hqs⟩ := portOrder_split_at k p
  have hafter : servePorts k qs = .next := funext fun a => by
    simpa [servePorts] using
      servePorts_skip [] (fun q hq => hidle q fun hqp => hqs (hqp ▸ hq)) a
  rw [hsplit, servePorts_skip _ fun q hq => hidle q fun hqp => hps (hqp ▸ hq), servePorts, hafter,
    andThen_next_right]

/-- A step in which one port has something to do is what that port does. -/
theorem step_lone {k : Tick} {rest : List Tick} (p : Port) (hwf : s.cfg.wellFormed = true)
    (hinbox : s.inbox = k :: rest) (hidle : ∀ q ≠ p, ∀ a, servePort k q a = .next a) :
    step s = andThen (servePort k p (beginTick k { s with inbox := rest }))
      fun u => .next (endTick u) := by
  rw [step_of_inbox hwf hinbox, runTick, servePorts_lone p hidle]

/-- A step in which only the producer's side moves is that move (60_exceptions.md R117). -/
theorem step_loneProd {arr : List Byte} {m : ProdMove} {o : Order} {rest : List Tick}
    (hwf : s.cfg.wellFormed = true)
    (hinbox : s.inbox = ⟨arr, some m, none, none, o⟩ :: rest) :
    step s =
      andThen (producerMove m (beginTick ⟨arr, some m, none, none, o⟩ { s with inbox := rest })) fun u =>
        .next (endTick u) :=
  step_lone .prod hwf hinbox fun q hq a => by
    cases q with
    | prod => exact absurd rfl hq
    | cons => rfl
    | ctrl => rfl

/-- A step in which only the consumer's side moves is that move (60_exceptions.md R117). -/
theorem step_loneCons {arr : List Byte} {m : ConsMove} {o : Order} {rest : List Tick}
    (hwf : s.cfg.wellFormed = true)
    (hinbox : s.inbox = ⟨arr, none, some m, none, o⟩ :: rest) :
    step s =
      andThen (consumerMove m (beginTick ⟨arr, none, some m, none, o⟩ { s with inbox := rest })) fun u =>
        .next (endTick u) :=
  step_lone .cons hwf hinbox fun q hq a => by
    cases q with
    | prod => rfl
    | cons => exact absurd rfl hq
    | ctrl => rfl

/-! ### Faults -/

/-- Under the invariant no command faults: before INIT its checks refuse it, from INIT on the state is
live (60_exceptions.md R110). -/
theorem State.Inv.exec_not_fault {i : Instr} (hs : s.Inv) (r : Fault) : exec i s ≠ .fault r := by
  cases hcheck : commandRefusal i s with
  | some q => simp [exec_of_refusal hcheck]
  | none =>
    by_cases hi : i = .init
    · subst hi
      simp [exec, execInit, hcheck]
    · have hlive : s.Live := ⟨hs, init_of_commandRefusal hcheck hi⟩
      exact hlive.exec_not_fault r

/-- Under the invariant no word issued faults. -/
theorem State.Inv.issue_not_fault {p : Port} {w : Word} (hs : s.Inv) (r : Fault) :
    issue p w s ≠ .fault r := by
  have hport : (s.withPort p).Inv := hs
  unfold issue
  split
  · nofun
  · exact hport.exec_not_fault r

/-- Under the invariant the producer routine faults only where its `release` does: its read comes
after a test that found a byte. -/
theorem producerRun_fault {r : Fault} (hs : s.Inv) (h : producerRun s = .fault r) :
    release s = .fault r := by
  unfold producerRun at h
  split at h
  next => cases h
  next => cases h
  next hp =>
    obtain ⟨-, -, -, -, hprod⟩ := hs
    obtain ⟨b, q, hq⟩ := List.exists_cons_of_ne_nil (hprod hp)
    simp [hq] at h
  next => simp [andThen_eq_fault, hs.issue_not_fault] at h
  next => simpa [andThen_eq_fault] using h

/-- Under the invariant the producer's side faults only where a `release` does. -/
theorem producerMove_fault {m : ProdMove} {r : Fault} (hs : s.Inv)
    (h : producerMove m s = .fault r) : release s = .fault r := by
  cases m with
  | word w => exact absurd h (hs.issue_not_fault r)
  | interrupt => cases h
  | run => exact producerRun_fault hs h
  | release =>
    rw [producerMove] at h
    rcases producerRelease_cases s with hr | hr
    · exact hr ▸ h
    · simp [hr] at h
  | take x => cases h

/-- Under the invariant the consumer's side faults only where a `release` does. -/
theorem consumerMove_fault {m : ConsMove} {r : Fault} (hs : s.Inv)
    (h : consumerMove m s = .fault r) : release s = .fault r := by
  have hnote : s.noteStuck.Inv := hs
  cases m with
  | word w => exact absurd h (hs.issue_not_fault r)
  | call x => cases h
  | run e =>
    simp only [consumerMove, consumerRun] at h
    split at h
    case h_3 => simp [andThen_eq_fault, hnote.issue_not_fault] at h
    all_goals cases h
  | release =>
    rw [consumerMove] at h
    rcases consumerRelease_cases s.noteStuck with hr | hr
    · obtain ⟨hbound, hfault⟩ := release_eq_fault.1 (hr ▸ h)
      exact release_eq_fault.2 ⟨hbound, hfault⟩
    · simp [hr] at h
  | take x => cases h

/-- Under the invariant a port faults only where a `release` does (60_exceptions.md R112). -/
theorem servePort_fault {k : Tick} {p : Port} {r : Fault} (hs : s.Inv)
    (h : servePort k p s = .fault r) : release s = .fault r := by
  rcases servePort_cases k p s with hq | ⟨m, -, -, hq⟩ | ⟨m, -, hq⟩ | ⟨w, -, hq⟩
  all_goals rw [hq] at h
  · cases h
  · exact producerMove_fault hs h
  · exact consumerMove_fault hs h
  · exact absurd h (hs.issue_not_fault r)

/-- The first port that faults is served in a state that meets the invariant, so that it fails in a
`release`. -/
theorem servePorts_fault {k : Tick} {ps : List Port} {r : Fault} (hs : s.Inv)
    (h : servePorts k ps s = .fault r) : r = .signalOverflow ∧ s.cfg.sigMax ≠ none := by
  induction ps generalizing s with
  | nil => cases h
  | cons p ps ih =>
    rcases andThen_eq_fault.1 h with hp | ⟨a, ha, hrest⟩
    · obtain ⟨hbound, hr⟩ := release_eq_fault.1 (servePort_fault hs hp)
      exact ⟨hr, by simp [hbound]⟩
    · rw [← (servePort_keepsSetup ha).cfg]
      exact ih (servePort_inv ha hs) hrest

/-- A step that faults does so in one of its ports. -/
theorem servePorts_fault_of_step {r : Fault} (h : step s = .fault r) :
    servePorts (nextTick s) (portOrder (nextTick s)) (beginTick (nextTick s) (takeTick s)) =
      .fault r := by
  unfold step at h
  split at h
  · cases h
  · simpa [runTick, andThen_eq_fault] using h

/-! ### What is the producer's -/

/-- A command leaves the byte source and its routine alone (20_memory.md R46), and answers on the
port being served (30_encoding.md R60). -/
theorem exec_answers {i : Instr} (h : exec i s = .next t) :
    t.producer = s.producer ∧ t.srcQ = s.srcQ ∧ ∃ r, t.resp = s.resp.put s.port r := by
  cases i with
  | init =>
    obtain ⟨-, rfl⟩ := execInit_eq_next.1 h
    exact ⟨rfl, rfl, _, rfl⟩
  | put b =>
    obtain ⟨-, ⟨-, rfl⟩ | ⟨-, -, rfl⟩⟩ := execPut_eq_next.1 h
    all_goals exact ⟨rfl, rfl, _, rfl⟩
  | get =>
    obtain ⟨-, ⟨-, rfl⟩ | ⟨-, -, b, -, rfl⟩⟩ := execGet_eq_next.1 h
    all_goals exact ⟨rfl, rfl, _, rfl⟩
  | len =>
    obtain ⟨-, rfl⟩ := execLen_eq_next.1 h
    exact ⟨rfl, rfl, _, rfl⟩

/-- What everything keeps that happens on CONS and CTRL: the producer routine, the pending bytes and
PROD's response. -/
structure KeepsProducer (s t : State) : Prop where
  producer : t.producer = s.producer
  srcQ : t.srcQ = s.srcQ
  resp : t.resp.prod = s.resp.prod

theorem KeepsProducer.refl (s : State) : KeepsProducer s s := ⟨rfl, rfl, rfl⟩

theorem KeepsProducer.trans {u : State} (h : KeepsProducer s t) (h' : KeepsProducer t u) :
    KeepsProducer s u where
  producer := h'.producer.trans h.producer
  srcQ := h'.srcQ.trans h.srcQ
  resp := h'.resp.trans h.resp

/-- A word issued on another port than PROD touches nothing of the producer's. -/
theorem issue_keepsProducer {p : Port} {w : Word} (hp : p ≠ .prod) (h : issue p w s = .next t) :
    KeepsProducer s t := by
  obtain ⟨i, -, hi⟩ := issue_eq_next.1 h
  obtain ⟨hproducer, hsrcQ, r, hresp⟩ := exec_answers hi
  have hprod : (s.resp.put p r).at .prod = s.resp.prod := at_put_other s.resp r hp.symm
  exact ⟨hproducer, hsrcQ, (congrArg Responses.prod hresp).trans hprod⟩

/-- A `release` touches nothing of the producer's. -/
theorem release_keepsProducer (h : release s = .next t) : KeepsProducer s t := by
  obtain ⟨-, rfl⟩ := release_eq_next.1 h
  exact ⟨rfl, rfl, rfl⟩

/-- The consumer's step touches nothing of the producer's. -/
theorem consumerRun_keepsProducer {e : Bool} (h : consumerRun e s = .next t) : KeepsProducer s t := by
  rcases consumerRun_eq_next.1 h with
    ⟨-, rfl⟩ | ⟨r, -, rfl⟩ | ⟨x, u, -, hu, rfl⟩ | ⟨x, w, -, rfl⟩ | ⟨x, -, rfl⟩
  · exact .refl t
  · exact .refl t
  · exact (issue_keepsProducer (p := .cons) nofun hu).trans ⟨rfl, rfl, rfl⟩
  · exact ⟨rfl, rfl, rfl⟩
  · exact ⟨rfl, rfl, rfl⟩

/-- No move of the consumer's side touches anything of the producer's. -/
theorem consumerMove_keepsProducer {m : ConsMove} (h : consumerMove m s = .next t) :
    KeepsProducer s t := by
  have hnote : KeepsProducer s s.noteStuck := ⟨rfl, rfl, rfl⟩
  rcases consumerMove_cases h with ⟨w, hw⟩ | rfl | ⟨x, rfl⟩ | ⟨e, hrun⟩ | hrelease | ⟨x, r, rfl⟩
  · exact issue_keepsProducer (p := .cons) nofun hw
  · exact hnote
  · exact ⟨rfl, rfl, rfl⟩
  · exact hnote.trans (consumerRun_keepsProducer hrun)
  · exact hnote.trans (release_keepsProducer hrelease)
  · exact ⟨rfl, rfl, rfl⟩

/-- Every port but PROD leaves alone what is the producer's. -/
theorem servePort_keepsProducer {k : Tick} {p : Port} (hp : p ≠ .prod)
    (h : servePort k p s = .next t) : KeepsProducer s t := by
  rcases servePort_cases k p s with hq | ⟨m, hprod, -⟩ | ⟨m, -, hq⟩ | ⟨w, -, hq⟩
  · obtain rfl : s = t := by simpa [hq] using h
    exact .refl s
  · exact absurd hprod hp
  · exact consumerMove_keepsProducer (hq ▸ h)
  · exact issue_keepsProducer (p := .ctrl) nofun (hq ▸ h)

/-- A step, seen from the producer: the other ports around what PROD does, before which the arrivals
have joined the pending bytes. -/
theorem step_around_prod (h : step s = .next t) :
    ∃ a b, KeepsProducer (beginTick (nextTick s) (takeTick s)) a ∧
      servePort (nextTick s) .prod a = .next b ∧ KeepsProducer b t := by
  obtain ⟨-, hrun⟩ := step_eq_next.1 h
  obtain ⟨u, hserve, rfl⟩ := runTick_eq_next.1 hrun
  obtain ⟨ps, qs, hsplit, hps, hqs⟩ := portOrder_split_at (nextTick s) .prod
  rw [hsplit] at hserve
  obtain ⟨a, hpre, hrest⟩ := servePorts_append_eq_next.1 hserve
  obtain ⟨b, hprod, hpost⟩ := servePorts_cons_eq_next.1 hrest
  have hothers {rs : List Port} (hrs : .prod ∉ rs) {x y : State}
      (hxy : servePorts (nextTick s) rs x = .next y) : KeepsProducer x y :=
    servePorts_rel .refl .trans
      (fun _ hq _ _ => servePort_keepsProducer fun hqp => hrs (hqp ▸ hq)) hxy
  exact ⟨a, b, hothers hps hpre, hprod, (hothers hqs hpost).trans ⟨rfl, rfl, rfl⟩⟩

/-- After an interrupt the producer routine is running (60_exceptions.md R120). -/
theorem interrupt_running (s : State) : (interrupt s).producer ≠ .idle := by
  rw [interrupt_eq]
  split_ifs with hp
  · nofun
  · exact hp

/-- A step that presents an interrupt leaves the producer routine running. -/
theorem step_interrupt_running (hk : (nextTick s).prod = some .interrupt) (h : step s = .next t) :
    t.producer ≠ .idle := by
  obtain ⟨a, b, -, hprod, hpost⟩ := step_around_prod h
  have hb : interrupt a = b := by simpa [servePort, hk, producerMove] using hprod
  rw [hpost.producer, ← hb]
  exact interrupt_running a

/-! ### What the producer hands over -/

/-- A word that is no PUT puts no byte. -/
theorem putByte_eq_none {w : Word} (h : ∀ b, decode w ≠ .command (.put b)) :
    putByte (some w) = none := by
  unfold putByte
  split
  next => rfl
  next w' hw =>
    cases hw
    split
    next b hd => exact absurd hd (h b)
    all_goals rfl

/-- PUT's word puts its byte. -/
theorem putByte_encode (b : Byte) : putByte (some (encode (.put b))) = some b := by
  simp [putByte, decode_encode]

/-- A PUT is answered as one. -/
theorem exec_put_resp {b : Byte} (h : exec (.put b) s = .next t) :
    ∃ ok, t.resp = s.resp.put s.port (.stored ok) := by
  obtain ⟨-, ⟨-, rfl⟩ | ⟨-, -, rfl⟩⟩ := execPut_eq_next.1 h
  all_goals exact ⟨_, rfl⟩

/-- The bytes PROD puts in a step, accepted or dropped, seen from its response. -/
def offeredOn (k : Tick) (s t : State) : List Byte :=
  (loggedPut (putByte (prodWord k s)) t.resp.prod).map fun x => x.1

/-- Where no byte stands on PROD, none is put. -/
theorem offeredOn_eq_nil {k : Tick} (h : putByte (prodWord k s) = none) : offeredOn k s t = [] := by
  simp [offeredOn, h, loggedPut]

/-- Each step of the producer routine puts the byte in hand, takes the oldest pending byte in hand, or
moves none (60_exceptions.md R121). -/
theorem producerRun_hands {k : Tick} (hk : k.prod = some .run) (h : producerRun s = .next t) :
    s.producer.inHand ++ s.srcQ = offeredOn k s t ++ t.producer.inHand ++ t.srcQ := by
  have hquiet (hp : ∀ b, s.producer ≠ .putting b) : offeredOn k s t = [] := by
    refine offeredOn_eq_nil ?_
    unfold prodWord
    split
    next hw => simp [hk] at hw
    next b _ hb => exact absurd hb (hp b)
    next => rfl
  rcases producerRun_eq_next.1 h with
    ⟨hp, rfl⟩ | ⟨hp, rfl⟩ | ⟨b, q, hp, hq, rfl⟩ | ⟨b, u, hp, hu, rfl⟩ | ⟨u, hp, hu, rfl⟩
  · simp [hquiet (by simp [hp])]
  · rw [hquiet (by simp [hp]), hp]
    split_ifs
    all_goals rfl
  · simp [hquiet (by simp [hp]), hp, hq, Producer.inHand]
  · rw [issue_encode] at hu
    obtain ⟨-, hsrcQ, -⟩ := exec_answers hu
    obtain ⟨ok, hresp⟩ := exec_put_resp hu
    have hoffered : offeredOn k s { u with producer := .testing } = [b] := by
      simp [offeredOn, prodWord, hk, hp, putByte_encode, hresp, Responses.put, loggedPut]
    rw [hoffered, hp]
    exact congrArg (b :: ·) hsrcQ.symm
  · rw [hquiet (by simp [hp]), hp, ← (release_keepsProducer hu).srcQ]
    rfl

/-- Where every PUT is the routine's, what PROD does in a step keeps the order of the bytes on their
way into the buffer: those put, the one in hand, those pending. -/
theorem servePort_prod_hands {k : Tick} (hk : k.noDirectPut) (h : servePort k .prod s = .next t) :
    s.producer.inHand ++ s.srcQ = offeredOn k s t ++ t.producer.inHand ++ t.srcQ := by
  rcases hm : k.prod with _ | m
  · obtain rfl : s = t := by simpa [servePort, hm] using h
    simp [offeredOn_eq_nil (k := k) (s := s) (t := s) (by simp [prodWord, hm, putByte])]
  have hmove : producerMove m s = .next t := by simpa [servePort, hm] using h
  cases m with
  | word w =>
    obtain ⟨i, -, hi⟩ := issue_eq_next.1 hmove
    obtain ⟨hproducer, hsrcQ, -⟩ := exec_answers hi
    have hword : prodWord k s = some w := by simp [prodWord, hm]
    rw [offeredOn_eq_nil (hword ▸ putByte_eq_none fun b => hk w b hm), hproducer, hsrcQ]
    rfl
  | interrupt =>
    cases hmove
    rw [offeredOn_eq_nil (by simp [prodWord, hm, putByte]), interrupt_eq]
    split_ifs with hp
    · rw [hp]; rfl
    · rfl
  | run => exact producerRun_hands hm hmove
  | release =>
    rw [offeredOn_eq_nil (by simp [prodWord, hm, putByte])]
    rw [producerMove] at hmove
    rcases producerRelease_cases s with hr | hr
    · have hkeep := release_keepsProducer (hr ▸ hmove)
      rw [hkeep.producer, hkeep.srcQ]
      rfl
    · obtain rfl : s = t := by simpa [hr] using hmove
      rfl
  | take x => cases hmove

/-- Where every PUT is the routine's, a step puts the arrivals behind what was on its way before, and
hands over from the front (60_exceptions.md R131). -/
theorem step_hands (hk : (nextTick s).noDirectPut) (h : step s = .next t) :
    s.producer.inHand ++ s.srcQ ++ (tickLog (nextTick s) s t).arrived =
      (tickLog (nextTick s) s t).offered ++ t.producer.inHand ++ t.srcQ := by
  obtain ⟨a, b, hpre, hprod, hpost⟩ := step_around_prod h
  have hword : prodWord (nextTick s) a = prodWord (nextTick s) s := by
    rw [prodWord, prodWord, hpre.producer, beginTick_producer, takeTick_producer]
  have hoffered : (tickLog (nextTick s) s t).offered = offeredOn (nextTick s) a b := by
    rw [offeredOn, hword, ← hpost.resp]
    rfl
  have hhands := servePort_prod_hands hk hprod
  rw [hpre.producer, hpre.srcQ, beginTick_srcQ, ← List.append_assoc] at hhands
  rw [hoffered, hpost.producer, hpost.srcQ]
  exact hhands

/-- What holds of every tick in the inbox, and of a quiet one, holds of the next step's. -/
theorem nextTick_of_forall {P : Tick → Prop} (hquiet : P Tick.quiet) (h : ∀ x ∈ s.inbox, P x) :
    P (nextTick s) := by
  cases hi : s.inbox with
  | nil => simpa [nextTick, hi] using hquiet
  | cons k rest => simpa [nextTick, hi] using h k (hi ▸ List.mem_cons_self)

/-- The bytes put in two stretches of a run. -/
theorem offered_append (l m : Log) : (l.append m).offered = l.offered ++ m.offered := by
  simp [Log.offered, Log.append]

/-- Where every PUT is the routine's, a run puts the bytes that were on their way and those that
arrive in order, and leaves the rest on their way (60_exceptions.md R131). -/
theorem logRun_hands {n : Nat} {l : Log} (hinbox : ∀ x ∈ s.inbox, x.noDirectPut)
    (h : logRun n s = .next (t, l)) :
    s.producer.inHand ++ s.srcQ ++ l.arrived = l.offered ++ t.producer.inHand ++ t.srcQ := by
  induction n generalizing s l with
  | zero =>
    cases h
    simp [Log.offered]
  | succ n ih =>
    obtain ⟨u, m, hu, hm, rfl⟩ := logRun_succ_eq_next.1 h
    have hfirst := step_hands (nextTick_of_forall nofun hinbox) hu
    have hrest := ih (fun x hx => hinbox x (List.mem_of_mem_tail (step_inbox hu ▸ hx))) hm
    calc s.producer.inHand ++ s.srcQ ++ ((tickLog (nextTick s) s u).append m).arrived
        = (s.producer.inHand ++ s.srcQ ++ (tickLog (nextTick s) s u).arrived) ++ m.arrived :=
          (List.append_assoc _ _ _).symm
      _ = (tickLog (nextTick s) s u).offered ++ (u.producer.inHand ++ u.srcQ ++ m.arrived) := by
          rw [hfirst]
          simp only [List.append_assoc]
      _ = ((tickLog (nextTick s) s u).append m).offered ++ t.producer.inHand ++ t.srcQ := by
          rw [hrest, offered_append]
          simp only [List.append_assoc]

/-! ### The producer routine -/

/-- The loop test with a byte pending (60_exceptions.md R121). -/
theorem producerRun_of_pending (hp : s.producer = .testing) (hq : s.srcQ ≠ []) :
    producerRun s = .next { s with producer := .reading } := by
  simp [producerRun, hp, hq]

/-- The loop test with nothing pending. -/
theorem producerRun_of_none (hp : s.producer = .testing) (hq : s.srcQ = []) :
    producerRun s = .next { s with producer := .releasing } := by
  simp [producerRun, hp, hq]

/-- The read takes the oldest pending byte. -/
theorem producerRun_of_reading {b : Byte} {q : List Byte} (hp : s.producer = .reading)
    (hq : s.srcQ = b :: q) : producerRun s = .next { s with srcQ := q, producer := .putting b } := by
  simp [producerRun, hp, hq]

/-- The PUT of the byte in hand is PUT's meaning on PROD. -/
theorem producerRun_of_putting {b : Byte} (hp : s.producer = .putting b) :
    producerRun s = andThen (exec (.put b) (s.withPort .prod)) fun t =>
      .next { t with producer := .testing } := by
  simp [producerRun, hp, issue_encode]

/-- The release ends the routine. -/
theorem producerRun_of_releasing (hp : s.producer = .releasing) :
    producerRun s = andThen (release s) fun t => .next { t with producer := .idle } := by
  simp [producerRun, hp]

/-- The first of the routine's steps, where it goes on. -/
theorem producerRuns_of_next (n : Nat) (h : producerRun s = .next t) :
    producerRuns (n + 1) s = producerRuns n t := by
  simp [producerRuns, h]

/-- The routine's PUT in a live state is one step of the queue (20_memory.md R51). -/
theorem producerRun_put {b : Byte} (hs : s.Live) (hp : s.producer = .putting b) :
    ∃ t, producerRun s = .next t ∧ t.Live ∧ t.producer = .testing ∧ t.srcQ = s.srcQ ∧
      t.sig = s.sig ∧ t.cfg = s.cfg ∧
      t.contents = (queueStep s.cfg.cap s.contents (.put b)).1 := by
  obtain ⟨u, hu⟩ := (hs.withPort .prod).exec_completes (i := .put b) rfl nofun
  obtain ⟨-, -, hcfg, -, -, -, hsig, hsrcQ, -⟩ := putChangesOnlyItsOwn b _ u hu
  obtain ⟨r, -, -, hcontents⟩ := (hs.withPort .prod).exec_queue hu
  have hrun : producerRun s = .next { u with producer := .testing } := by
    rw [producerRun_of_putting hp, hu, andThen_next]
  have hlive : ({ u with producer := .testing } : State).Live :=
    ⟨producerRun_inv hrun hs.1, (producerRun_keepsConsumer hrun).init hs.2⟩
  exact ⟨_, hrun, hlive, rfl, hsrcQ, hsig, hcfg, hcontents⟩

/-- One turn of the routine's loop: three steps put the oldest pending byte. -/
theorem producerRuns_turn {b : Byte} {q : List Byte} (hs : s.Live) (hp : s.producer = .testing)
    (hq : s.srcQ = b :: q) :
    ∃ t, (∀ n, producerRuns (n + 3) s = producerRuns n t) ∧ t.Live ∧ t.producer = .testing ∧
      t.srcQ = q ∧ t.sig = s.sig ∧ t.cfg = s.cfg ∧
      t.contents = (queueStep s.cfg.cap s.contents (.put b)).1 := by
  have htest := producerRun_of_pending hp (by simp [hq])
  have hread : producerRun { s with producer := .reading } =
      .next { s with srcQ := q, producer := .putting b } := producerRun_of_reading rfl hq
  have hlive : ({ s with srcQ := q, producer := .putting b } : State).Live :=
    ⟨producerRun_inv hread (producerRun_inv htest hs.1), hs.2⟩
  obtain ⟨t, hput, hafter⟩ := producerRun_put hlive rfl
  refine ⟨t, fun n => ?_, hafter⟩
  rw [producerRuns_of_next _ htest, producerRuns_of_next _ hread, producerRuns_of_next _ hput]

/-- The last two steps of the routine: nothing is pending, and it releases. -/
theorem producerRuns_end (hp : s.producer = .testing) (hq : s.srcQ = [])
    (hbound : s.cfg.sigMax ≠ some s.sig) :
    producerRuns 2 s = .next { s with sig := s.sig + 1, producer := .idle } := by
  have hrelease : release { s with producer := .releasing } =
      .next { s with sig := s.sig + 1, producer := .releasing } := release_eq_next.2 ⟨hbound, rfl⟩
  rw [producerRuns_of_next 1 (producerRun_of_none hp hq), producerRuns, producerRun_of_releasing rfl,
    hrelease]
  rfl

/-- From its loop test the routine puts every pending byte as the queue does, in order, and then
releases (60_exceptions.md R121). -/
theorem producerRuns_drain {q : List Byte} (hs : s.Live) (hp : s.producer = .testing)
    (hq : s.srcQ = q) (hbound : s.cfg.sigMax ≠ some s.sig) :
    ∃ t, producerRuns (3 * q.length + 2) s = .next t ∧ t.producer = .idle ∧ t.srcQ = [] ∧
      t.sig = s.sig + 1 ∧ t.contents = (queueRun s.cfg.cap (q.map .put) s.contents).1 := by
  induction q generalizing s with
  | nil => exact ⟨_, producerRuns_end hp hq hbound, rfl, hq, rfl, rfl⟩
  | cons b q ih =>
    obtain ⟨u, hturn, hlive, hup, huq, hsig, hcfg, hcontents⟩ := producerRuns_turn hs hp hq
    obtain ⟨t, hrun, hidle, hnone, hpermit, hleft⟩ := ih hlive hup huq (by rwa [hcfg, hsig])
    rw [hcfg, hcontents] at hleft
    exact ⟨t, (hturn (3 * q.length + 2)).trans hrun, hidle, hnone, hsig ▸ hpermit, hleft⟩

/-! ### Wake-ups -/

/-- With a permit no wake-up is owed any more. -/
theorem wakeOwed_of_permit (h : 0 < t.sig) : t.wakeOwed := fun _ _ _ => .inl h

/-- While the producer routine runs, its `release` is still to come. -/
theorem wakeOwed_of_running (h : t.producer ≠ .idle) : t.wakeOwed := fun _ _ _ => .inr h

/-- A consumer that is not blocked is owed nothing. -/
theorem wakeOwed_of_awake (h : t.blocked = false) : t.wakeOwed :=
  fun _ hb => absurd (h.symm.trans hb) nofun

/-- Without data nothing is owed. -/
theorem wakeOwed_of_empty (h : t.isEmpty = true) : t.wakeOwed :=
  fun _ _ he => absurd (h.symm.trans he) nofun

/-- A `take` outside a call leaves the consumer idle or in that `take`, not blocked on data. -/
theorem blocked_of_bareTake (s : State) (x : Timeout) (r : Option TakeResult) :
    (s.afterTake r (afterBareTake x r)).blocked = false := by
  rcases r with _ | _ | _
  all_goals rfl

/-- A `release` leaves a permit. -/
theorem wakeOwed_of_release (h : release s = .next t) : t.wakeOwed := by
  obtain ⟨-, rfl⟩ := release_eq_next.1 h
  exact wakeOwed_of_permit s.sig.succ_pos

/-- Only a PUT brings data: INIT empties the buffer, GET and LEN add none. -/
theorem issue_wakeOwed {p : Port} {w : Word} (hs : s.wakeOwed)
    (hput : p = .prod → ∀ b, decode w ≠ .command (.put b)) (h : issue p w s = .next t) :
    t.wakeOwed := by
  obtain ⟨i, hd, hi⟩ := issue_eq_next.1 h
  cases i with
  | init =>
    obtain ⟨-, rfl⟩ := execInit_eq_next.1 hi
    exact wakeOwed_of_empty (decide_eq_true (occ_clearRing _))
  | put b => exact absurd hd (hput (portAccepts_put.1 (exec_accepted hi)) b)
  | get =>
    obtain ⟨-, ⟨-, rfl⟩ | ⟨he, -, b, -, rfl⟩⟩ := execGet_eq_next.1 hi
    · exact hs
    · exact fun hinit hb _ => hs hinit hb he
  | len =>
    obtain ⟨-, rfl⟩ := execLen_eq_next.1 hi
    exact hs

/-- The producer routine runs on after each of its steps, but for the `release` that ends it. -/
theorem producerRun_wakeOwed (hs : s.wakeOwed) (h : producerRun s = .next t) : t.wakeOwed := by
  rcases producerRun_eq_next.1 h with
    ⟨-, rfl⟩ | ⟨-, rfl⟩ | ⟨b, q, -, -, rfl⟩ | ⟨b, u, -, -, rfl⟩ | ⟨u, -, hu, rfl⟩
  · exact hs
  · refine wakeOwed_of_running ?_
    split_ifs
    all_goals nofun
  · exact wakeOwed_of_running nofun
  · exact wakeOwed_of_running nofun
  · obtain ⟨-, rfl⟩ := release_eq_next.1 hu
    exact wakeOwed_of_permit s.sig.succ_pos

/-- No move of the producer's side but a direct PUT loses a wake-up. -/
theorem producerMove_wakeOwed {m : ProdMove} (hs : s.wakeOwed)
    (hput : ∀ w b, m = .word w → decode w ≠ .command (.put b)) (h : producerMove m s = .next t) :
    t.wakeOwed := by
  cases m with
  | word w => exact issue_wakeOwed hs (fun _ b => hput w b rfl) h
  | interrupt =>
    cases h
    exact wakeOwed_of_running (interrupt_running s)
  | run => exact producerRun_wakeOwed hs h
  | release =>
    rw [producerMove] at h
    rcases producerRelease_cases s with hr | hr
    · exact wakeOwed_of_release (hr ▸ h)
    · obtain rfl : s = t := by simpa [hr] using h
      exact hs
  | take x => cases h

/-- The consumer blocks only after a GET that found the buffer empty, and a `take` takes a permit only
where it ends the wait. -/
theorem consumerRun_wakeOwed {e : Bool} (hs : s.wakeOwed) (h : consumerRun e s = .next t) :
    t.wakeOwed := by
  rcases consumerRun_eq_next.1 h with
    ⟨-, rfl⟩ | ⟨r, -, rfl⟩ | ⟨x, u, -, hu, rfl⟩ | ⟨x, w, hc, rfl⟩ | ⟨x, -, rfl⟩
  · exact hs
  · exact hs
  · rw [issue_encode] at hu
    obtain ⟨-, ⟨he, rfl⟩ | ⟨-, -, b, -, rfl⟩⟩ := execGet_eq_next.1 hu
    · exact wakeOwed_of_empty he
    · exact wakeOwed_of_awake rfl
  · have hblocked : s.blocked = true := by rw [State.blocked, hc]
    rcases takeAttempt x w e s.sig with _ | _ | _
    · exact fun hinit _ he => hs hinit hblocked he
    · exact wakeOwed_of_awake rfl
    · exact wakeOwed_of_awake rfl
  · exact wakeOwed_of_awake (blocked_of_bareTake s x _)

/-- No move of the consumer's side loses a wake-up. -/
theorem consumerMove_wakeOwed {m : ConsMove} (hs : s.wakeOwed) (h : consumerMove m s = .next t) :
    t.wakeOwed := by
  have hnote : s.noteStuck.wakeOwed := hs
  rcases consumerMove_cases h with ⟨w, hw⟩ | rfl | ⟨x, rfl⟩ | ⟨e, hrun⟩ | hrelease | ⟨x, r, rfl⟩
  · exact issue_wakeOwed (p := .cons) hs nofun hw
  · exact hnote
  · exact wakeOwed_of_awake rfl
  · exact consumerRun_wakeOwed hnote hrun
  · exact wakeOwed_of_release hrelease
  · exact wakeOwed_of_awake (blocked_of_bareTake s.noteStuck x r)

/-- Where every PUT is the routine's, no port loses a wake-up (60_exceptions.md R128). -/
theorem servePort_wakeOwed {k : Tick} {p : Port} (hk : k.noDirectPut) (hs : s.wakeOwed)
    (h : servePort k p s = .next t) : t.wakeOwed := by
  rcases servePort_cases k p s with hq | ⟨m, -, hm, hq⟩ | ⟨m, -, hq⟩ | ⟨w, -, hq⟩
  all_goals rw [hq] at h
  · cases h
    exact hs
  · exact producerMove_wakeOwed hs (fun w b hw => hk w b (hm.trans (congrArg some hw))) h
  · exact consumerMove_wakeOwed hs h
  · exact issue_wakeOwed (p := .ctrl) hs nofun h

/-! ### The consumer's state machine -/

/-- A `take` waits exactly where there is no permit and no finite timeout of an earlier wait expires
(60_exceptions.md R125). -/
theorem takeAttempt_eq_none {x : Timeout} {w e : Bool} {n : Nat} :
    takeAttempt x w e n = none ↔ n = 0 ∧ ¬ (w = true ∧ e = true ∧ x = .finite) := by
  unfold takeAttempt
  split_ifs with hn hx
  · simp [hn.ne']
  · simp [hx]
  · simp only [true_iff]
    exact ⟨Nat.eq_zero_of_not_pos hn, hx⟩

/-- With a permit the consumer has an enabled step. -/
theorem not_consumerStuck_of_permit (h : 0 < s.sig) : s.consumerStuck = false :=
  Bool.eq_false_iff.2 fun hstuck => h.ne' (consumerStuck_iff.1 hstuck).2

/-- A consumer that is neither in a call nor blocked has an enabled step. -/
theorem not_consumerStuck_of_not_busy (h : s.consumer.busy = false) : s.consumerStuck = false :=
  Bool.eq_false_iff.2 fun hstuck => absurd (h.symm.trans (busy_of_consumerStuck hstuck)) nofun

/-- The turn of a stuck consumer is noted (log entry 17). -/
theorem noteStuck_of_stuck (h : s.consumerStuck = true) : s.noteStuck = { s with stuck := true } := by
  simp [State.noteStuck, h]

/-- In BLOCKED_ON_SIGNAL a finite timeout or a `take` not begun leaves the consumer a step. -/
theorem noteStuck_of_blocked {x : Timeout} {w : Bool} (hc : s.consumer = .blockedOnSignal x w)
    (hxw : x = .finite ∨ w = false) : s.noteStuck = s := by
  refine noteStuck_eq_self s ?_
  rcases hxw with rfl | rfl
  · simp [State.consumerStuck, hc]
  · cases x
    all_goals simp [State.consumerStuck, hc]

/-- In a `take` outside a call a finite timeout leaves the consumer a step. -/
theorem noteStuck_of_bareTake_finite (hc : s.consumer = .bareTake .finite) : s.noteStuck = s :=
  noteStuck_eq_self s (by simp [State.consumerStuck, hc])

/-- An attempt at `take` that leaves the consumer where it was changes no more than the result. -/
theorem afterTake_none_self {c : Consumer} (h : s.consumer = c) :
    s.afterTake none c = { s with takeRes := none } := by
  subst h
  rfl

/-- The step of BLOCKED_ON_SIGNAL is an attempt at `take` (60_exceptions.md R127). -/
theorem consumerMove_run_blocked {x : Timeout} {w : Bool} (e : Bool)
    (hc : s.consumer = .blockedOnSignal x w) :
    consumerMove (.run e) s = .next (s.noteStuck.afterTake (takeAttempt x w e s.sig)
      (afterBlocked x (takeAttempt x w e s.sig))) := by
  simp [consumerMove, consumerRun, hc]

/-- The step of a `take` outside a call is an attempt at it (60_exceptions.md R125). -/
theorem consumerMove_run_bareTake {x : Timeout} (e : Bool) (hc : s.consumer = .bareTake x) :
    consumerMove (.run e) s = .next (s.noteStuck.afterTake (takeAttempt x true e s.sig)
      (afterBareTake x (takeAttempt x true e s.sig))) := by
  simp [consumerMove, consumerRun, hc]

/-- The step of WAIT_FOR_DATA is GET's meaning on CONS (60_exceptions.md R126). -/
theorem consumerMove_run_waiting {x : Timeout} (e : Bool) (hc : s.consumer = .waitForData x) :
    consumerMove (.run e) s = andThen (exec .get (s.withPort .cons)) fun u =>
      .next { u with consumer := afterGet x u.resp.cons } := by
  have hfree : s.consumerStuck = false := by simp [State.consumerStuck, hc]
  simp [consumerMove, noteStuck_eq_self s hfree, consumerRun, hc, issue_encode]

/-- A `take` of a consumer in no call makes its first attempt at once (60_exceptions.md R125). -/
theorem consumerMove_take (x : Timeout) (hb : s.consumer.busy = false) :
    consumerMove (.take x) s = .next (s.afterTake (takeAttempt x false false s.sig)
      (afterBareTake x (takeAttempt x false false s.sig))) := by
  simp [consumerMove, noteStuck_eq_self s (not_consumerStuck_of_not_busy hb), consumerTake, hb]

/-- A call starts at WAIT_FOR_DATA (60_exceptions.md R127). -/
theorem consumerMove_call (x : Timeout) (hb : s.consumer.busy = false) :
    consumerMove (.call x) s = .next { s with consumer := .waitForData x } := by
  simp [consumerMove, noteStuck_eq_self s (not_consumerStuck_of_not_busy hb), consumerCall, hb]

/-- WAIT_FOR_DATA on an empty buffer goes to BLOCKED_ON_SIGNAL and leaves the buffer as it was. -/
theorem consumerMove_run_waiting_of_empty {x : Timeout} (e : Bool) (hs : s.Live)
    (hc : s.consumer = .waitForData x) (he : s.isEmpty = true) :
    ∃ t, consumerMove (.run e) s = .next t ∧ t.consumer = .blockedOnSignal x false ∧
      t.contents = s.contents ∧ t.sig = s.sig := by
  have hget : exec .get (s.withPort .cons) = .next (s.withPort .cons).respondNoData :=
    execGet_of_empty (hs.withPort .cons) rfl he
  rw [consumerMove_run_waiting e hc, hget]
  exact ⟨_, rfl, rfl, rfl, rfl⟩

/-- WAIT_FOR_DATA with data returns the oldest byte and takes it out of the buffer. -/
theorem consumerMove_run_waiting_of_data {x : Timeout} (e : Bool) (hs : s.Live)
    (hc : s.consumer = .waitForData x) (he : s.isEmpty = false) :
    ∃ t b, consumerMove (.run e) s = .next t ∧ t.consumer = .returned (.byte b) ∧
      s.contents = b :: t.contents ∧ t.sig = s.sig := by
  obtain ⟨hr, hm, -⟩ := hs.ring
  obtain ⟨b, hb⟩ := hs.exists_oldest he
  have hget : exec .get (s.withPort .cons) =
      .next ((s.withPort .cons).advanceRead.respond (.byte b)) :=
    execGet_of_data (hs.withPort .cons) rfl he hb
  rw [consumerMove_run_waiting e hc, hget]
  exact ⟨_, b, rfl, rfl, contents_advanceRead hr hm he hb, rfl⟩

/-- The own step of a stuck consumer leaves it where it is, noted as Stuck (60_exceptions.md R125). -/
theorem consumerMove_run_of_stuck (e : Bool) (h : s.consumerStuck = true) :
    consumerMove (.run e) s = .next { s with takeRes := none, stuck := true } := by
  obtain ⟨hc, h0⟩ := consumerStuck_iff.1 h
  have hwait : takeAttempt .forever true e s.sig = none := takeAttempt_eq_none.2 ⟨h0, nofun⟩
  rcases hc with hc | hc
  · rw [consumerMove_run_blocked e hc, hwait, noteStuck_of_stuck h]
    exact congrArg _ (afterTake_none_self hc)
  · rw [consumerMove_run_bareTake e hc, hwait, noteStuck_of_stuck h]
    exact congrArg _ (afterTake_none_self hc)

/-- A consumer that waits without a timeout takes a permit that is there in its own step
(60_exceptions.md R125). -/
theorem consumerMove_run_of_permit (e : Bool) (hsig : 0 < s.sig)
    (hc : s.consumer = .blockedOnSignal .forever true ∨ s.consumer = .bareTake .forever) :
    ∃ c, consumerMove (.run e) s = .next (s.afterTake (some .ok) c) := by
  have hok : takeAttempt .forever true e s.sig = some .ok := takeAttempt_eq_ok.2 hsig
  have hself := noteStuck_eq_self s (not_consumerStuck_of_permit hsig)
  rcases hc with hc | hc
  · exact ⟨_, by rw [consumerMove_run_blocked e hc, hok, hself]⟩
  · exact ⟨_, by rw [consumerMove_run_bareTake e hc, hok, hself]⟩

end

/-! ### The obligations -/

/-- Settles O33: every port is served in a state that meets the invariant, and under it only a
`release` faults. -/
theorem onlySignalOverflowFaults : Obligations.OnlySignalOverflowFaults := by
  unfold Obligations.OnlySignalOverflowFaults
  intro s r hs h
  have htake : (takeTick s).Inv := hs
  have hfault := servePorts_fault (beginTick_inv htake) (servePorts_fault_of_step h)
  exact hfault

/-- Settles O40: by induction on the steps, on the way into the buffer and on the way out of it. -/
theorem arrivalsAreDeliveredInOrder : Obligations.ArrivalsAreDeliveredInOrder := by
  unfold Obligations.ArrivalsAreDeliveredInOrder
  intro n s t l hs hinbox h
  exact ⟨logRun_hands (fun x hx => (hinbox x hx).2) h,
    bytesLeaveInOrder n s t l hs (fun x hx => (hinbox x hx).1) h⟩

/-- Settles O44: by induction on the pending bytes, each put as the queue does, which keeps the first
ones up to its capacity. -/
theorem drainMovesEveryByteReleasesOnce : Obligations.DrainMovesEveryByteReleasesOnce := by
  unfold Obligations.DrainMovesEveryByteReleasesOnce
  intro s hs hp hbound
  have hstart : interrupt s = { s with producer := .testing } := by rw [interrupt_eq, if_pos hp]
  have hlive : ({ s with producer := .testing } : State).Live := ⟨hs.1.withProducer nofun, hs.2⟩
  obtain ⟨hr, -, hwin⟩ := hs.ring
  obtain ⟨t, hrun, hidle, hnone, hsig, hleft⟩ := producerRuns_drain hlive rfl rfl hbound
  refine ⟨t, hstart ▸ hrun, hidle, hnone, hsig, hleft.trans ?_⟩
  have hlen : s.contents.length = s.occ := length_contents hwin
  have hroom : s.contents.length ≤ s.cfg.cap := hlen ▸ occ_le_cap hr
  rw [← hlen]
  exact congrArg Prod.fst (queueRun_puts s.srcQ hroom)

/-- Settles O49: every port keeps it, and so do the start and the end of a tick. -/
theorem noWakeUpIsLost : Obligations.NoWakeUpIsLost := by
  unfold Obligations.NoWakeUpIsLost
  intro s t hs hk h
  obtain ⟨-, hrun⟩ := step_eq_next.1 h
  obtain ⟨u, hserve, rfl⟩ := runTick_eq_next.1 hrun
  have hbegin : (beginTick (nextTick s) (takeTick s)).wakeOwed := hs
  have hports : (beginTick (nextTick s) (takeTick s)).wakeOwed → u.wakeOwed :=
    servePorts_rel (R := fun a b => a.wakeOwed → b.wakeOwed) (fun _ => id)
      (fun hab hbc => hbc ∘ hab) (fun _ _ _ _ hserve ha => servePort_wakeOwed hk ha hserve) hserve
  exact hports hbegin

/-- Settles O12: in a live state the checks pass and the cells a command uses are there. -/
theorem everyCommandCompletes : Obligations.EveryCommandCompletes := by
  unfold Obligations.EveryCommandCompletes
  intro i s hs hp hi
  obtain ⟨t, ht⟩ := hs.exec_completes hp hi
  exact ⟨t, ht, exec_live hs ht⟩

/-- Settles O46: if the routine stayed idle, the schedule would present an interrupt, whose step
leaves it running. -/
theorem fairInterruptsStartTheRoutine : Obligations.FairInterruptsStartTheRoutine := by
  unfold Obligations.FairInterruptsStartTheRoutine
  intro ticks states hrun hfair n hpending
  by_contra hidle
  push Not at hidle
  obtain ⟨m, hm, hinterrupt⟩ := hfair n fun m hm => ⟨hpending m hm, hidle m hm⟩
  have hrunning : (states (m + 1)).producer ≠ .idle :=
    step_interrupt_running (s := { states m with inbox := [ticks m] }) hinterrupt (hrun m)
  exact hrunning (hidle (m + 1) (hm.trans (Nat.le_succ m)))

/-- Settles O48: each place of the state machine with its one step, GET's or a `take`'s. -/
theorem consumerRoutineSteps : Obligations.ConsumerRoutineSteps := by
  unfold Obligations.ConsumerRoutineSteps
  intro s x e hs
  refine ⟨consumerMove_call x, consumerMove_run_waiting_of_empty e hs,
    consumerMove_run_waiting_of_data e hs, fun w hc hsig => ?_, fun hc h0 => ?_, fun hc h0 => ?_,
    fun hc h0 => ?_, fun hc h0 => consumerMove_run_of_stuck e (consumerStuck_iff.2 ⟨.inl hc, h0⟩)⟩
  · have hok : takeAttempt x w e s.sig = some .ok := takeAttempt_eq_ok.2 hsig
    rw [consumerMove_run_blocked e hc, hok, noteStuck_eq_self s (not_consumerStuck_of_permit hsig)]
    rfl
  · have hexpire : takeAttempt .finite true true s.sig = some .timedOut :=
      takeAttempt_eq_timedOut.2 ⟨h0, rfl, rfl, rfl⟩
    rw [consumerMove_run_blocked true hc, hexpire, noteStuck_of_blocked hc (.inl rfl)]
    rfl
  · have hwait : takeAttempt x false e s.sig = none := takeAttempt_eq_none.2 ⟨h0, nofun⟩
    rw [consumerMove_run_blocked e hc, hwait, noteStuck_of_blocked hc (.inr rfl)]
    rfl
  · have hwait : takeAttempt .finite true false s.sig = none := takeAttempt_eq_none.2 ⟨h0, nofun⟩
    rw [consumerMove_run_blocked false hc, hwait, noteStuck_of_blocked hc (.inl rfl)]
    exact congrArg _ (afterTake_none_self hc)

/-- Settles O18: a quiet tick has nothing for any port. -/
theorem quietStepKeepsState : Obligations.QuietStepKeepsState := by
  unfold Obligations.QuietStepKeepsState
  intro s hwf hinbox
  have hports (a : State) : servePorts Tick.quiet (portOrder Tick.quiet) a = .next a :=
    servePorts_lone .prod (fun q _ a => by cases q <;> rfl) a
  have hnext : nextTick s = Tick.quiet := by simp [nextTick, hinbox]
  simp only [step, configRefusal_eq_none.2 hwf, runTick, hnext, hports, andThen_next]
  simp [endTick, beginTick, takeTick, hinbox, Tick.quiet]

/-- Settles O41: below its bound the Signal counts one more, which is a permit for a `take`. -/
theorem releaseAddsOnePermit : Obligations.ReleaseAddsOnePermit := by
  unfold Obligations.ReleaseAddsOnePermit
  refine fun s => ⟨fun hm => release_eq_next.2 ⟨by simp [hm], rfl⟩,
    fun m hm hne => release_eq_next.2 ⟨by simpa [hm] using hne.symm, rfl⟩,
    fun m hm heq => release_eq_fault.2 ⟨by rw [hm, heq], rfl⟩, fun t x e h => ?_⟩
  obtain ⟨-, rfl⟩ := release_eq_next.1 h
  exact takeAttempt_eq_ok.2 s.sig.succ_pos

/-- Settles O42: the three results of an attempt at `take`, the first and a later one. -/
theorem takeTakesOrBlocks : Obligations.TakeTakesOrBlocks := by
  unfold Obligations.TakeTakesOrBlocks
  intro s x
  refine ⟨fun hb hsig => ?_, fun hb h0 => ?_, fun e hc hsig => ?_, fun hc h0 => ?_, fun hc h0 => ?_,
    fun e hc h0 => consumerMove_run_of_stuck e (consumerStuck_iff.2 ⟨.inr hc, h0⟩)⟩
  · have hok : takeAttempt x false false s.sig = some .ok := takeAttempt_eq_ok.2 hsig
    rw [consumerMove_take x hb, hok]
    rfl
  · have hwait : takeAttempt x false false s.sig = none := takeAttempt_eq_none.2 ⟨h0, nofun⟩
    rw [consumerMove_take x hb, hwait]
    rfl
  · have hok : takeAttempt x true e s.sig = some .ok := takeAttempt_eq_ok.2 hsig
    rw [consumerMove_run_bareTake e hc, hok, noteStuck_eq_self s (not_consumerStuck_of_permit hsig)]
    rfl
  · have hexpire : takeAttempt .finite true true s.sig = some .timedOut :=
      takeAttempt_eq_timedOut.2 ⟨h0, rfl, rfl, rfl⟩
    rw [consumerMove_run_bareTake true hc, hexpire, noteStuck_of_bareTake_finite hc]
    rfl
  · have hwait : takeAttempt .finite true false s.sig = none := takeAttempt_eq_none.2 ⟨h0, nofun⟩
    rw [consumerMove_run_bareTake false hc, hwait, noteStuck_of_bareTake_finite hc]
    exact congrArg _ (afterTake_none_self hc)

/-- Settles O43: one equation for each place of the routine. -/
theorem producerRoutineSteps : Obligations.ProducerRoutineSteps := by
  unfold Obligations.ProducerRoutineSteps
  exact fun s => ⟨producerRun_of_pending, producerRun_of_none, fun b q => producerRun_of_reading,
    fun b => producerRun_of_putting, producerRun_of_releasing⟩

/-- Settles O45: the interrupt writes only the routine's place, and that only where it is idle. -/
theorem interruptStartsIdleRoutineOnly : Obligations.InterruptStartsIdleRoutineOnly := by
  unfold Obligations.InterruptStartsIdleRoutineOnly
  refine fun s => ⟨fun hp => ?_, fun hp => ?_⟩
  · rw [producerMove, interrupt_eq, if_pos hp]
  · rw [producerMove, interrupt_eq, if_neg hp]

/-- Settles O47: the move is refused, and it is the whole step. -/
theorem takeInInterruptIsRefused : Obligations.TakeInInterruptIsRefused := by
  unfold Obligations.TakeInInterruptIsRefused
  exact ⟨fun s x => rfl, fun s x rest hwf hinbox => step_loneProd hwf hinbox⟩

/-- Settles O50: a stuck consumer's own move only sets the mark, alone in a step too; a `release`
gives it the permit its next step takes. -/
theorem stuckConsumerWaitsForRelease : Obligations.StuckConsumerWaitsForRelease := by
  unfold Obligations.StuckConsumerWaitsForRelease
  refine ⟨fun s e hstuck => ⟨consumerMove_run_of_stuck e hstuck, fun t ht => ?_⟩,
    fun s m arr o rest hwf hstuck hword hinbox => ?_⟩
  · obtain ⟨-, rfl⟩ := release_eq_next.1 ht
    obtain ⟨c, hrun⟩ := consumerMove_run_of_permit (s := { s with sig := s.sig + 1 }) e
      s.sig.succ_pos (consumerStuck_iff.1 hstuck).1
    exact ⟨not_consumerStuck_of_permit s.sig.succ_pos, _, hrun, rfl, rfl, rfl⟩
  · obtain ⟨r, hr, hmove⟩ := consumerMove_of_stuck
      (s := beginTick ⟨arr, none, some m, none, o⟩ { s with inbox := rest }) hword hstuck
    obtain rfl : r = none := hr.elim id id
    refine stepOutcome_eq_stuck.2 ⟨?_, rfl⟩
    rw [step_loneCons hwf hinbox, hmove]
    rfl

/-- Settles O51: the other two ports have nothing to do. -/
theorem stepRunsAgentMove : Obligations.StepRunsAgentMove := by
  unfold Obligations.StepRunsAgentMove
  refine fun s rest arr o hwf => ⟨fun m hinbox => ?_, fun m hinbox => ?_⟩
  · rw [step_loneProd hwf hinbox, nextTick, hinbox]
    rfl
  · rw [step_loneCons hwf hinbox, nextTick, hinbox]
    rfl

end Sys2Proof.Machine

/-! PROOFS. The family of 70_reset_and_hazards.md: what power-on leaves (R150, R153), the commands
before the first INIT (R151), and that no step depends on the register values power-on leaves. -/

namespace Sys2Proof.Machine

open Sys2Proof

section

variable {s : State}

/-! ### The invariant at power-on -/

/-- With nothing stored, INIT not run, no permit and no routine running, the invariant asks only that
a block of the configuration exists (70_reset_and_hazards.md R150, R153). -/
theorem powerOn_inv {c : Config} (h : c.wellFormed = true) (i j : Nat) (m n : Bool) (q : List Byte) :
    (State.powerOn c i m j n q).Inv :=
  have hstorage : (State.powerOn c i m j n q).storageOk := ⟨memory_nil_wf, nofun⟩
  have hsignal : (State.powerOn c i m j n q).signalOk := fun k _ => k.zero_le
  ⟨h, hstorage, nofun, hsignal, nofun⟩

/-! ### Other register values at power-on -/

/-- The state, had power-on left other values in the four registers: they stand there until INIT has
run, and are gone afterwards (70_reset_and_hazards.md R150). -/
def State.otherPowerOn (s : State) (i j : Nat) (m n : Bool) : State :=
  s.withRegisters (if s.init then s.rIdx else i) (if s.init then s.rMir else m)
    (if s.init then s.wIdx else j) (if s.init then s.wMir else n)

/-- Once INIT has run, nothing is left of what power-on put in the registers. -/
theorem otherPowerOn_of_init (h : s.init = true) (i j : Nat) (m n : Bool) :
    s.otherPowerOn i j m n = s := by
  simp only [State.otherPowerOn, h, if_true]
  rfl

/-- Until then it is the change of registers that the claim names. -/
theorem otherPowerOn_of_not_init (h : s.init = false) (i j : Nat) (m n : Bool) :
    s.otherPowerOn i j m n = s.withRegisters i m j n := by
  simp [State.otherPowerOn, h]

/-- Both cases in one, as the claim states the next state. -/
theorem otherPowerOn_eq (s : State) (i j : Nat) (m n : Bool) :
    s.otherPowerOn i j m n = if s.init then s else s.withRegisters i m j n := by
  split_ifs with h
  · exact otherPowerOn_of_init h i j m n
  · exact otherPowerOn_of_not_init (Bool.eq_false_iff.2 h) i j m n

@[simp] theorem otherPowerOn_srcQ (i j : Nat) (m n : Bool) :
    (s.otherPowerOn i j m n).srcQ = s.srcQ := rfl

@[simp] theorem otherPowerOn_producer (i j : Nat) (m n : Bool) :
    (s.otherPowerOn i j m n).producer = s.producer := rfl

@[simp] theorem otherPowerOn_consumer (i j : Nat) (m n : Bool) :
    (s.otherPowerOn i j m n).consumer = s.consumer := rfl

/-! ### Operations that do not see them -/

/-- An operation does not see power-on's register values: with others it faults or is refused alike,
and answers the same state but for them. -/
def Unseen (f : State → Result) : Prop :=
  ∀ (s : State) (i j : Nat) (m n : Bool),
    f (s.otherPowerOn i j m n) = andThen (f s) fun t => .next (t.otherPowerOn i j m n)

/-- The same of an update that always answers. -/
def UnseenUpdate (f : State → State) : Prop :=
  ∀ (s : State) (i j : Nat) (m n : Bool), f (s.otherPowerOn i j m n) = (f s).otherPowerOn i j m n

/-- Such an update is an operation that sees nothing of them. -/
theorem UnseenUpdate.next {f : State → State} (hf : UnseenUpdate f) : Unseen fun s => .next (f s) :=
  fun s i j m n => congrArg _ (hf s i j m n)

/-- The operation that does nothing. -/
theorem unseen_next : Unseen .next := fun _ _ _ _ _ => rfl

/-- One operation after another sees only what one of them does. -/
theorem Unseen.andThen {f g : State → Result} (hf : Unseen f) (hg : Unseen g) :
    Unseen fun s => andThen (f s) g := by
  intro s i j m n
  dsimp only
  rw [hf s i j m n]
  cases f s with
  | next t => exact hg t i j m n
  | fault r => rfl
  | refused r => rfl

/-- What is done before an operation may be such an update. -/
theorem Unseen.comp {f : State → Result} {g : State → State} (hf : Unseen f) (hg : UnseenUpdate g) :
    Unseen fun s => f (g s) :=
  hg.next.andThen hf

/-! ### Commands -/

/-- The key fact: INIT overwrites the registers (40_init.md R80), and until it has run every other
command is refused without a look at them (70_reset_and_hazards.md R151). -/
theorem unseen_exec (c : Instr) : Unseen (exec c) := by
  intro s i j m n
  have hsame : commandRefusal c (s.otherPowerOn i j m n) = commandRefusal c s := rfl
  cases hcheck : commandRefusal c s with
  | some r => rw [exec_of_refusal hcheck, exec_of_refusal (hsame.trans hcheck), andThen_refused]
  | none =>
    by_cases hc : c = .init
    · subst hc
      rw [exec, exec, execInit_eq_next.2 ⟨hcheck, rfl⟩, execInit_eq_next.2 ⟨hsame.trans hcheck, rfl⟩]
      rfl
    · have hinit : s.init = true := init_of_commandRefusal hcheck hc
      rw [otherPowerOn_of_init hinit]
      cases h : exec c s with
      | next t => rw [andThen_next, otherPowerOn_of_init ((exec_keepsConsumer h).init hinit)]
      | fault r => rfl
      | refused r => rfl

/-- A word issued is its command's, or reserved and refused in every state (30_encoding.md R66). -/
theorem unseen_issue (p : Port) (w : Word) : Unseen (issue p w) := by
  cases hw : decode w with
  | command c =>
    rw [funext (issue_command hw p)]
    exact (unseen_exec c).comp fun _ _ _ _ _ => rfl
  | reserved v =>
    rw [funext (issue_reserved hw p)]
    exact fun _ _ _ _ _ => rfl

/-! ### The agents' moves -/

/-- `release` reads the Signal and its bound only (60_exceptions.md R124). -/
theorem unseen_release : Unseen release := by
  intro s i j m n
  by_cases h : s.cfg.sigMax = some s.sig
  · rw [release_eq_fault.2 ⟨h, rfl⟩]
    exact release_eq_fault.2 ⟨h, rfl⟩
  · rw [release_eq_next.2 ⟨h, rfl⟩]
    exact release_eq_next.2 ⟨h, rfl⟩

/-- The producer routine goes by its place and the pending bytes (60_exceptions.md R121). -/
theorem unseen_producerRun : Unseen producerRun := by
  intro s i j m n
  simp only [producerRun, otherPowerOn_producer]
  cases s.producer with
  | idle => rfl
  | testing => rfl
  | reading =>
    cases hq : s.srcQ with
    | nil => simp only [otherPowerOn_srcQ, hq, andThen_fault]
    | cons b q =>
      simp only [otherPowerOn_srcQ, hq]
      rfl
  | putting b => exact (unseen_issue .prod _).andThen (fun _ _ _ _ _ => rfl) s i j m n
  | releasing => exact unseen_release.andThen (fun _ _ _ _ _ => rfl) s i j m n

/-- The producer's `release` goes by the routine's place and the Signal (log entry 15). -/
theorem unseen_producerRelease : Unseen producerRelease := by
  intro s i j m n
  simp only [producerRelease, otherPowerOn_producer]
  cases s.producer with
  | idle => exact unseen_release s i j m n
  | _ => rfl

/-- No move of the producer's side sees the registers but through a command. -/
theorem unseen_producerMove (x : ProdMove) : Unseen (producerMove x) := by
  cases x with
  | word w => exact unseen_issue .prod w
  | interrupt =>
    have hint : UnseenUpdate interrupt := fun s i j m n => by rw [interrupt_eq, interrupt_eq]; rfl
    exact hint.next
  | run => exact unseen_producerRun
  | release => exact unseen_producerRelease
  | take x => exact fun _ _ _ _ _ => rfl

/-- The consumer's routine goes by its place, the Signal and the response to its GET
(60_exceptions.md R127). -/
theorem unseen_consumerRun (e : Bool) : Unseen (consumerRun e) := by
  intro s i j m n
  simp only [consumerRun, otherPowerOn_consumer]
  cases s.consumer with
  | waitForData x => exact (unseen_issue .cons _).andThen (fun _ _ _ _ _ => rfl) s i j m n
  | _ => rfl

/-- The consumer's `release` goes by whether it is in a call and by the Signal (log entry 15). -/
theorem unseen_consumerRelease : Unseen consumerRelease := by
  intro s i j m n
  unfold consumerRelease
  cases hb : s.consumer.busy with
  | true => simp only [otherPowerOn_consumer, hb, if_true, andThen_next]
  | false =>
    simp only [otherPowerOn_consumer, hb, Bool.false_eq_true, if_false]
    exact unseen_release s i j m n

/-- What the consumer starts while it is not busy (log entry 15) does not see the registers, if its
first step does not. -/
theorem unseenUpdate_unless_busy {f : State → State} (hf : UnseenUpdate f) :
    UnseenUpdate fun s => if s.consumer.busy then s else f s := by
  intro s i j m n
  cases hb : s.consumer.busy with
  | true => simp only [otherPowerOn_consumer, hb, if_true]
  | false => simp only [otherPowerOn_consumer, hb, Bool.false_eq_true, if_false, hf s i j m n]

/-- No move of the consumer's side sees the registers but through a command; nor does the mark of a
Stuck step, which goes by the consumer and the Signal (log entry 17). -/
theorem unseen_consumerMove (x : ConsMove) : Unseen (consumerMove x) := by
  have hnote : UnseenUpdate State.noteStuck := fun _ _ _ _ _ => rfl
  cases x with
  | word w => exact unseen_issue .cons w
  | call x =>
    have hcall : UnseenUpdate fun s => { s with consumer := .waitForData x } := fun _ _ _ _ _ => rfl
    exact (unseenUpdate_unless_busy hcall).next.comp hnote
  | run e => exact (unseen_consumerRun e).comp hnote
  | release => exact unseen_consumerRelease.comp hnote
  | take x =>
    have htake : UnseenUpdate fun s => s.afterTake (takeAttempt x false false s.sig)
        (afterBareTake x (takeAttempt x false false s.sig)) := fun _ _ _ _ _ => rfl
    exact (unseenUpdate_unless_busy htake).next.comp hnote

/-! ### The step -/

/-- A port's turn is nothing, a move of its side, or a word. -/
theorem unseen_servePort (k : Tick) (p : Port) : Unseen (servePort k p) := by
  unfold servePort
  cases p with
  | prod =>
    cases k.prod with
    | none => exact unseen_next
    | some x => exact unseen_producerMove x
  | cons =>
    cases k.cons with
    | none => exact unseen_next
    | some x => exact unseen_consumerMove x
  | ctrl =>
    cases k.ctrl with
    | none => exact unseen_next
    | some w => exact unseen_issue .ctrl w

/-- By induction on the ports still to be served. -/
theorem unseen_servePorts (k : Tick) (ps : List Port) : Unseen (servePorts k ps) := by
  induction ps with
  | nil => exact unseen_next
  | cons p ps ih => exact (unseen_servePort k p).andThen ih

/-- The start and the end of a tick do not touch the registers. -/
theorem unseen_runTick (k : Tick) : Unseen (runTick k) :=
  ((unseen_servePorts k (portOrder k)).comp fun _ _ _ _ _ => rfl).andThen fun _ _ _ _ _ => rfl

/-- No step sees the register values power-on left: the configuration and the inbox, which choose
what a step runs, are the same. -/
theorem unseen_step : Unseen step := by
  intro s i j m n
  have hsame : configRefusal (s.otherPowerOn i j m n).cfg = configRefusal s.cfg := rfl
  cases hcfg : configRefusal s.cfg with
  | some r =>
    rw [step_refused_of_configRefusal hcfg, step_refused_of_configRefusal (hsame.trans hcfg)]
    rfl
  | none =>
    simp only [step, hsame, hcfg]
    exact unseen_runTick (nextTick s) (takeTick s) i j m n

end

/-! ### The obligations -/

/-- Settles O36: the step with other register values is the step, with them replaced in its next
state where INIT has still not run. -/
theorem powerOnRegistersAreUnseen : Obligations.PowerOnRegistersAreUnseen := by
  unfold Obligations.PowerOnRegistersAreUnseen
  intro s i j m n hinit
  have hstep := unseen_step s i j m n
  rw [otherPowerOn_of_not_init hinit] at hstep
  refine ⟨fun r => ?_, fun r => ?_, fun t ht => ?_⟩
  · simp [hstep, andThen_eq_refused]
  · simp [hstep, andThen_eq_fault]
  · rw [hstep, ht, andThen_next, otherPowerOn_eq]

/-- Settles O14: the second check refuses every command but INIT, and INIT sets `init`. -/
theorem beforeInitOnlyInitRuns : Obligations.BeforeInitOnlyInitRuns := by
  unfold Obligations.BeforeInitOnlyInitRuns
  refine ⟨fun i s hi hinit hp => exec_of_refusal (commandRefusal_notInitialised hp hi hinit),
    fun s _ hp hb => ⟨s.clearRing.respond .unit, exec_init_eq_next.2 ⟨hp, hb, rfl⟩, rfl⟩⟩

/-- Settles O30: what power-on leaves in the registers and pending, the invariant does not ask
about; `State.reset`'s configuration is one of which a block exists. -/
theorem powerOnMeetsInvariant : Obligations.PowerOnMeetsInvariant := by
  unfold Obligations.PowerOnMeetsInvariant
  refine ⟨fun c i j m n q hc => ⟨powerOn_inv hc i j m n q, rfl, rfl, rfl, rfl, rfl, ?_⟩, rfl, ?_⟩
  · exact memory_read_nil
  · exact powerOn_inv (by decide) 0 0 false false []

end Sys2Proof.Machine
